-- ==== Sys2Proof/Word.lean ====
section
/-! DEFINITION. The widths of the block: bytes of the image, 16-bit colours and header fields, 32-bit registers
(spec/00_scope.md R5, spec/10_state.md R22). -/

namespace Sys2Proof

/-- One byte of the image buffer (R60). -/
abbrev Byte := BitVec 8

/-- A 16-bit header field or an RGB565 colour (R81, R86). -/
abbrev Half := BitVec 16

/-- A 32-bit register, command word or sink coordinate (R5). -/
abbrev Word := BitVec 32

end Sys2Proof
end

