-- ==== Sys2Proof/Syntax.lean ====
section
/-! DEFINITION. The commands: one constructor per row of spec/opcode_table.json (spec/30_encoding.md R96). A command
word has no operand fields; its operands are the registers latched at acceptance (R95, R228). -/

namespace Sys2Proof

/-- The commands of the block. -/
inductive Instr where
  /-- Nothing, in every state (R224). -/
  | nop
  /-- Parse the header into the HDR registers (R130). -/
  | parse
  /-- Walk the raster with the header already parsed (R150). -/
  | blit
  /-- Parse, then walk if the parse succeeds (R151). -/
  | decodeBlit
  /-- Convert CONV_IN into CONV_OUT (R183). -/
  | convert
deriving DecidableEq, Repr

end Sys2Proof
end

