-- ==== Sys2Proof/Formats.lean ====
section
/-! DEFINITION. The formats at the block's ports: register names, HOST accesses, sink events, the EXT client's calls,
and a turn (one agent's next step with the SINK_READY draw it meets). -/

namespace Sys2Proof

/-- The named registers of the window, in order of offset (spec/10_state.md R22). -/
inductive Reg where
  | cmd | status | originX | originY | convIn | convOut | hdrFileSize | hdrPixelOffset | hdrHeaderSize
  | hdrWidth | hdrHeight | hdrPlanesBpp | hdrCompression | pixCount | errInfo | imgLenR | cursor
deriving DecidableEq, Repr

/-- A HOST register access (spec/30_encoding.md R90): a read or a write of the word at index `w`, 0 to 63. -/
inductive HostAccess where
  | rd (w : BitVec 6)
  | wr (w : BitVec 6) (data : Word)
deriving DecidableEq, Repr

/-- The arbiter's request ports (spec/43_write_arbiter.md R195): P0 is the ENGINE's, P1 the EXT client's. -/
inductive Port where
  | p0
  | p1
deriving DecidableEq, Repr

/-- The RenderSink operations other than setPixel (R88). A setPixel travels as a pixel event (R205; log 8). -/
inductive RenderOp where
  | drawString | drawRectangle | drawCircle | drawTriangle | drawXAxis | drawYAxis | drawWave | drawNumber
  | clearScreen | init
deriving DecidableEq, Repr

/-- One entry of the sink history (R88). The arguments of an `op` are words that nothing in the block reads
(DESIGN CHOICE, log 8). -/
inductive SinkEvent where
  /-- `Pix(port, x, y, c)`. -/
  | pix (port : Port) (x y : Word) (c : Half)
  /-- `Op(P1, name, args)`. -/
  | op (name : RenderOp) (args : List Word)
deriving DecidableEq, Repr

/-- What the EXT client may send while it owns the sink (R205). -/
inductive ExtCall where
  | setPixel (x y : Word) (c : Half)
  | other (name : RenderOp) (args : List Word)
deriving DecidableEq, Repr

/-- One agent's step (spec/00_scope.md R8; reset is R270's atomic step of the environment). -/
inductive Action where
  /-- The ENGINE's next step (R234). -/
  | engine
  /-- The arbiter's grant step (R198). -/
  | arb
  /-- A HOST register access (R220, R221). -/
  | host (access : HostAccess)
  /-- The HOST's word that it has no further access to make but those laid down (R233; log 21). It is no access. -/
  | hostDone
  /-- The EXT client asks for the sink (R204). -/
  | extRequest
  /-- The EXT client sends one operation (R205). -/
  | extOp (call : ExtCall)
  /-- The EXT client gives the sink back (R206). -/
  | extRelease
  /-- The reset input (R270). -/
  | reset
deriving DecidableEq, Repr, Inhabited

/-- A turn: whose step is next, and the value SINK_READY is drawn at in that step (spec/10_state.md R58; log 6). -/
structure Turn where
  sinkReady : Bool
  action : Action
deriving DecidableEq, Repr, Inhabited

end Sys2Proof
end

