-- ==== Sys2Proof/Config.lean ====
section
/-! DEFINITION. The implementation parameters of spec/00_scope.md R5, and the free value the spec leaves to the
environment: which agent moves next. -/

namespace Sys2Proof

/-- Which port wins when both request while the sink is free (`ARB_PRIORITY`, R199). -/
inductive ArbPriority where
  | p0First
  | p1First
deriving DecidableEq, Repr

/-- The image buffer (spec/20_memory.md R60): `IMG_LEN` bytes from offset 0. `cells` lists, by rising address, the
bytes that are not 0; an unlisted byte below `len` reads as 0 (DESIGN CHOICE of form, log 5). -/
structure Memory where
  len : Word
  cells : List Host.Cell
deriving DecidableEq, Repr

/-- The parameters of one launch (R5). No step changes them (R59, R62). -/
structure Config where
  /-- `IMG` and `IMG_LEN`. -/
  img : Memory
  /-- `ORIGIN_X_ADD`. -/
  originXAdd : Bool
  /-- `ARB_PRIORITY`. -/
  arbPriority : ArbPriority
deriving DecidableEq, Repr

/-- The words of the register window, `CSR_WORDS` (R5). A word index has 6 bits (R67). -/
def Config.csrWords : Nat := 64

/-- The spec's values of the two parameters it gives a value, and an empty image: the spec makes the image a launch
argument (DESIGN CHOICE, log 4). -/
def Config.default : Config :=
  { img := { len := 0, cells := [] }, originXAdd := false, arbPriority := .p0First }

/-- The free turn number `n`: any enabled agent may take the next step (R8), so where no turn has been laid down
nothing says whose it is. No body: nothing can be proved of its values (log 2). -/
opaque Config.freeTurn : Nat → Turn

end Sys2Proof
end

