-- ==== Sys2Proof/WellFormed.lean ====
section
/-! DEFINITION. The checks on what is not well formed by its type: a launch's image (the canonical form of log 5).
An `Instr` has no field, so none of its terms is ill formed; a command WORD can be, and Decode says which. -/

namespace Sys2Proof

/-- Every command is well formed: no constructor of `Instr` has a field (R95). -/
def Instr.wf (i : Instr) : Bool :=
  match i with
  | .nop => true
  | .parse => true
  | .blit => true
  | .decodeBlit => true
  | .convert => true

/-- Every listed address from `lo` on: strictly rising, below `len`, its byte not 0. -/
def cellsWf (len : Nat) (lo : Nat) : List Host.Cell → Bool
  | [] => true
  | c :: rest => decide (lo ≤ c.1) && decide (c.1 < len) && (c.2 != 0) && cellsWf len (c.1 + 1) rest

/-- The canonical form of an image (log 5): equal images are equal data. -/
def Memory.wf (m : Memory) : Bool := cellsWf m.len.toNat 0 m.cells

/-- A well-formed launch has a canonical image. -/
def Config.wf (c : Config) : Bool := c.img.wf

end Sys2Proof
end

