-- ==== Sys2Proof/Decode.lean ====
section
/-! DEFINITION. The command decoder of spec/30_encoding.md R95 to R97, the encoder of R96, and the reading of a row of
the opcode table. -/

namespace Sys2Proof

/-- The `RSV` field, bits 31:4 of a command word (R95). -/
def cmdReserved (word : Word) : BitVec 28 := word.extractLsb' 4 28

/-- The `OP` field, bits 3:0 of a command word (R95). -/
def cmdOp (word : Word) : BitVec 4 := word.extractLsb' 0 4

/-- A word the block does not refuse: reserved bits zero and an opcode of R96. -/
def wordLegal (word : Word) : Bool := cmdReserved word == 0 && (cmdOp word).toNat < 5

/-- Why a word is no command (R97). The block treats both alike (R225). -/
inductive DecodeError where
  /-- Some bit of 31:4 is set. -/
  | reservedBits
  /-- The opcode is 5 to 15. -/
  | reservedOpcode
deriving DecidableEq, Repr

/-- The command an opcode selects (R96). -/
def decodeOp (op : BitVec 4) : Except DecodeError Instr :=
  if op = 0 then .ok .nop
  else if op = 1 then .ok .parse
  else if op = 2 then .ok .blit
  else if op = 3 then .ok .decodeBlit
  else if op = 4 then .ok .convert
  else .error .reservedOpcode

/-- The decoder of a command word (R95). -/
def decode (word : Word) : Except DecodeError Instr :=
  if cmdReserved word = 0 then decodeOp (cmdOp word) else .error .reservedBits

/-- The opcode of a command (R96). -/
def opcode (i : Instr) : BitVec 4 :=
  match i with
  | .nop => 0
  | .parse => 1
  | .blit => 2
  | .decodeBlit => 3
  | .convert => 4

/-- The one command word of a command: its opcode below 28 reserved zero bits (R95, R96). -/
def encode (i : Instr) : Word := (0 : BitVec 28) ++ opcode i

/-- The word whose bits are `w`, of which the opcode table gives `nbits`: higher bits are 0. -/
def tableWord (nbits w : Nat) : Word := BitVec.ofNat 32 (w % 2 ^ nbits)

/-- The command the decoder reads from a row's bits. A command is one 32-bit word written whole to CMD (R67, R99),
so there is no byte order to lay out. -/
def decodeTableWord (nbits w : Nat) : Option Instr :=
  match decode (tableWord nbits w) with
  | .ok i => some i
  | .error _ => none

end Sys2Proof
end

