-- ==== Sys2Proof/Machine/State.lean ====
section
/-! DEFINITION. The state of the machine: every register, flag and hidden field of spec/10_state.md, the sink history,
the launch parameters, and the model's own record of inputs and HOST observations. -/

namespace Sys2Proof.Machine

/-- The ENGINE's states (R52). -/
inductive Fsm where
  | idle
  | parse
  | blitCheck
  | blitPix
  | conv
deriving DecidableEq, Repr

/-- The values STATUS.ERR can hold (R29, R240). Codes 5 to 15 are never held, so they are no values (log 12). -/
inductive ErrCode where
  | none
  | invalidFormat
  | truncatedData
  | noHeader
  | illegalCmd
deriving DecidableEq, Repr

/-- The values STATUS.CAUSE can hold (R30, R241). Codes 4 to 15 are never held (log 12). -/
inductive Cause where
  | none
  | magic
  | planes
  | compression
deriving DecidableEq, Repr

/-- What a raise carries: the error, its cause and the word for ERR_INFO (R7, R240). -/
structure Raise where
  err : ErrCode
  cause : Cause
  info : Word
deriving DecidableEq, Repr

/-- STATUS bits 15:0 (R24 to R31). -/
structure Status where
  busy : Bool
  done : Bool
  hdrValid : Bool
  ovr : Bool
  err : ErrCode
  cause : Cause
  lastOp : BitVec 4
deriving DecidableEq, Repr

/-- The arbiter state, which is also STATUS bits 19:16 (R32 to R34, R56). `owner = none` is OWNER = NONE; the code 3
is never held. -/
structure Arbiter where
  owner : Option Port
  reqP0 : Bool
  reqP1 : Bool
deriving DecidableEq, Repr

/-- The RasterHeader, in the HDR registers (R40 to R46). -/
structure Header where
  fileSize : Word
  pixelOffset : Word
  headerSize : Word
  width : Word
  height : Word
  planesBpp : Word
  compression : Word
deriving DecidableEq, Repr

/-- The cleared header: every HDR register 0 (R131, R271). -/
def Header.zero : Header :=
  { fileSize := 0, pixelOffset := 0, headerSize := 0, width := 0, height := 0, planesBpp := 0, compression := 0 }

/-- One HOST read: the word index it named and the value it returned (R220; log 7). -/
structure Reply where
  w : BitVec 6
  value : Word
deriving DecidableEq, Repr

/-- The machine. -/
structure State where
  /-- The launch parameters, constant (R5, R59; log 4). -/
  config : Config
  /-- STATUS bits 15:0. -/
  status : Status
  /-- STATUS bits 19:16. -/
  arb : Arbiter
  /-- ORIGIN_X (R36). -/
  originX : Word
  /-- ORIGIN_Y (R37). -/
  originY : Word
  /-- CONV_IN bits 23:0 (R38). -/
  convIn : BitVec 24
  /-- CONV_OUT bits 15:0 (R39). -/
  convOut : Half
  /-- The HDR registers (R40 to R46). -/
  hdr : Header
  /-- PIX_COUNT (R47). -/
  pixCount : Word
  /-- ERR_INFO (R48). -/
  errInfo : Word
  /-- CURSOR (R50). -/
  cursor : Word
  /-- FSM (R52). -/
  fsm : Fsm
  /-- THEN_BLIT (R53). -/
  thenBlit : Bool
  /-- LAT_OX (R54). -/
  latOx : Word
  /-- LAT_OY (R54). -/
  latOy : Word
  /-- LAT_CIN (R54). -/
  latCin : BitVec 24
  /-- ROW, read as s32 (R55). -/
  row : Word
  /-- COL, read as s32 (R55). -/
  col : Word
  /-- HIST, oldest event first; the sink's, not the block's (R57). -/
  hist : List SinkEvent
  /-- The model's own: what the HOST's reads returned, oldest first (log 7). -/
  replies : List Reply
  /-- The model's own: the turns laid down, the next one first (log 1). -/
  turns : List Turn
  /-- The model's own: how many free turns have been drawn (log 2). -/
  draws : Nat
  /-- The model's own: the HOST has no further access to make but those laid down (R233; log 21). -/
  hostDone : Bool
deriving DecidableEq, Repr

/-- STATUS bits 15:0 after reset (R271). -/
def Status.reset : Status :=
  { busy := false, done := false, hdrValid := false, ovr := false, err := .none, cause := .none, lastOp := 0 }

/-- The arbiter after reset (R271). -/
def Arbiter.reset : Arbiter := { owner := none, reqP0 := false, reqP1 := false }

/-- The machine right after power-up with the parameters `c`: every block register at its reset value (R271), HIST
empty (R57), no turn laid down and no read made. -/
def State.launch (c : Config) : State :=
  { config := c, status := .reset, arb := .reset, originX := 0, originY := 0, convIn := 0, convOut := 0,
    hdr := .zero, pixCount := 0, errInfo := 0, cursor := 0, fsm := .idle, thenBlit := false, latOx := 0, latOy := 0,
    latCin := 0, row := 0, col := 0, hist := [], replies := [], turns := [], draws := 0,
    hostDone := false }

/-- The machine right after reset, with the spec's parameter values and no image (log 4). -/
def State.reset : State := .launch .default

/-- Why the machine stops with a fault: never. Every step of every state has a next state, since an error is recorded
in STATUS and ends a command, not the machine (R246), and no access is undefined (R221). So there is no constructor,
which is safe: nothing the hardware does is left out by a fault. -/
inductive Fault where
deriving DecidableEq, Repr

/-- Why the machine refuses a command. -/
inductive Refusal where
  /-- Raised by an arm of `exec` whose command has no meaning yet. No arm raises it: every command has its meaning.
  Safe: a refusal proves nothing about the hardware. -/
  | notModelled (mnemonic : String)
deriving DecidableEq, Repr

end Sys2Proof.Machine
end

