-- ==== Sys2Proof/Machine/Operands.lean ====
section
/-! DEFINITION. How operands are read: the number conversions of spec/00_scope.md R6, image reads and little-endian
header fields (spec/20_memory.md R61, spec/40_header_parse.md R120 to R122), the word indices of the register window
(spec/30_encoding.md R102), the raster's extent and the sink coordinates (spec/41_raster_blit.md R153, R158, R159). -/

namespace Sys2Proof.Machine

/-- `s32(v)`: the two's complement reading (R6, R89; log 19). -/
def s32 (v : Word) : Int := v.toInt

/-- `u32(v)`: the unsigned reading (R6). -/
def u32 (v : Word) : Nat := v.toNat

/-- The 32-bit pattern of `wrap32(n)` (R6): `s32 (wrap32 n)` is the integer of R6. -/
def wrap32 (n : Int) : Word := BitVec.ofInt 32 n

/-- `min(k, 0xFFFFFFFF)`, the saturated byte count of R242. -/
def satWord (k : Nat) : Word := BitVec.ofNat 32 (min k 0xFFFFFFFF)

/-! ### The image buffer -/

/-- The byte listed at address `a`, or 0 (log 5). -/
def cellAt : List Host.Cell → Nat → Byte
  | [], _ => 0
  | c :: rest, a => if c.1 = a then c.2 else cellAt rest a

/-- `IMG[a]` (R60). It means something where `a < IMG_LEN`. -/
def imgByte (m : Memory) (a : Nat) : Byte := cellAt m.cells a

/-- `IMG_LEN` (R60). -/
def imgLen (m : Memory) : Nat := m.len.toNat

/-- `ImgRead(a, n)` (R61): the bytes, or the needed byte count of an overrun. -/
def imgRead (m : Memory) (a n : Nat) : Except Nat (List Byte) :=
  if a + n > imgLen m then .error (a + n) else .ok ((List.range' a n).map (imgByte m))

/-- The listed form of the bytes `bs`, the first of them at address `a`. -/
def cellsFrom (a : Nat) : List Byte → List Host.Cell
  | [] => []
  | b :: bs => if b = 0 then cellsFrom (a + 1) bs else (a, b) :: cellsFrom (a + 1) bs

/-- The image whose bytes are `bs`, offset 0 first: how a launch fixes IMG and IMG_LEN (R275). At most 2^32 - 1
bytes (R60). -/
def imageOf (bs : List Byte) : Memory := { len := BitVec.ofNat 32 bs.length, cells := cellsFrom 0 bs }

/-- Two bytes as a little-endian 16-bit value (R121). -/
def le16 (b0 b1 : Byte) : Half := b0.setWidth 16 ||| (b1.setWidth 16 <<< 8)

/-- Four bytes as a little-endian 32-bit value, built from two 16-bit ones (R122). -/
def le32 (b0 b1 b2 b3 : Byte) : Word := (le16 b0 b1).setWidth 32 ||| ((le16 b2 b3).setWidth 32 <<< 16)

/-- `overrun(k)` as the raise it means (R61, R132): TRUNCATED_DATA with the needed byte count. -/
def overrun (k : Nat) : Raise := { err := .truncatedData, cause := .none, info := satWord k }

/-- `ImgRead` whose overrun is a raise. -/
def readBytes (m : Memory) (a n : Nat) : Except Raise (List Byte) :=
  match imgRead m a n with
  | .ok bs => .ok bs
  | .error k => .error (overrun k)

/-- `read8(n)` (R120). No step uses it. -/
def read8 (m : Memory) (n : Nat) : Except Raise Byte :=
  match readBytes m n 1 with
  | .ok bs => .ok (bs.getD 0 0)
  | .error r => .error r

/-- `read16(n)` (R121): the whole field is bounds-checked at once. -/
def read16 (m : Memory) (n : Nat) : Except Raise Half :=
  match readBytes m n 2 with
  | .ok bs => .ok (le16 (bs.getD 0 0) (bs.getD 1 0))
  | .error r => .error r

/-- `read32(n)` (R122): the whole field is bounds-checked at once. -/
def read32 (m : Memory) (n : Nat) : Except Raise Word :=
  match readBytes m n 4 with
  | .ok bs => .ok (le32 (bs.getD 0 0) (bs.getD 1 0) (bs.getD 2 0) (bs.getD 3 0))
  | .error r => .error r

/-! ### The register window -/

/-- The word index of a named register (R102). -/
def regIndex (r : Reg) : BitVec 6 :=
  match r with
  | .cmd => 0 | .status => 1 | .originX => 2 | .originY => 3 | .convIn => 4 | .convOut => 5
  | .hdrFileSize => 6 | .hdrPixelOffset => 7 | .hdrHeaderSize => 8 | .hdrWidth => 9 | .hdrHeight => 10
  | .hdrPlanesBpp => 11 | .hdrCompression => 12 | .pixCount => 13 | .errInfo => 14 | .imgLenR => 15 | .cursor => 16

/-- The register at byte offset `4w`, or none at a reserved offset (R22, R51). -/
def regAt (w : BitVec 6) : Option Reg :=
  match w.toNat with
  | 0 => some .cmd
  | 1 => some .status
  | 2 => some .originX
  | 3 => some .originY
  | 4 => some .convIn
  | 5 => some .convOut
  | 6 => some .hdrFileSize
  | 7 => some .hdrPixelOffset
  | 8 => some .hdrHeaderSize
  | 9 => some .hdrWidth
  | 10 => some .hdrHeight
  | 11 => some .hdrPlanesBpp
  | 12 => some .hdrCompression
  | 13 => some .pixCount
  | 14 => some .errInfo
  | 15 => some .imgLenR
  | 16 => some .cursor
  | _ => none

/-! ### The raster -/

/-- `W = s32(HDR_WIDTH)` (R84). -/
def rasterW (s : State) : Int := s32 s.hdr.width

/-- `H = s32(HDR_HEIGHT)` (R84). -/
def rasterH (s : State) : Int := s32 s.hdr.height

/-- `u32(HDR_PIXEL_OFFSET) + 3 * W * H`, unbounded (R153). -/
def rasterEnd (s : State) : Int := (u32 s.hdr.pixelOffset : Int) + 3 * rasterW s * rasterH s

/-- `Xcoord(COL)` (R158): ORIGIN_X counts only when ORIGIN_X_ADD is true. -/
def xcoord (s : State) : Word :=
  if s.config.originXAdd then wrap32 (s32 s.latOx + s32 s.col) else s.col

/-- `wrap32(ROW + s32(LAT_OY))` (R159). -/
def ycoord (s : State) : Word := wrap32 (s32 s.row + s32 s.latOy)

end Sys2Proof.Machine
end

