-- ==== Sys2Proof/Machine/Flags.lean ====
section
/-! DEFINITION. The flags: the codes of STATUS, the word a read of STATUS returns (spec/44_command_control.md R231), and
what acceptance, finish, a refusal and a drop do to STATUS bits 15:0 (R225 to R227, R232). -/

namespace Sys2Proof.Machine

/-- The code of STATUS.ERR (R29). -/
def errBits (e : ErrCode) : BitVec 4 :=
  match e with
  | .none => 0
  | .invalidFormat => 1
  | .truncatedData => 2
  | .noHeader => 3
  | .illegalCmd => 4

/-- The code of STATUS.CAUSE (R30). -/
def causeBits (c : Cause) : BitVec 4 :=
  match c with
  | .none => 0
  | .magic => 1
  | .planes => 2
  | .compression => 3

/-- `OWNER_CODE` (R231). -/
def ownerBits (o : Option Port) : BitVec 2 :=
  match o with
  | none => 0
  | some .p0 => 1
  | some .p1 => 2

/-- A one-bit field at bit `n` of a word. -/
def flagAt (b : Bool) (n : Nat) : Word := (BitVec.ofBool b).setWidth 32 <<< n

/-- The word a read of STATUS returns (R231). Bits 31:20 are 0 (R35). -/
def statusWord (s : State) : Word :=
  flagAt s.status.busy 0 ||| flagAt s.status.done 1 ||| flagAt s.status.hdrValid 2 ||| flagAt s.status.ovr 3
    ||| ((errBits s.status.err).setWidth 32 <<< 4) ||| ((causeBits s.status.cause).setWidth 32 <<< 8)
    ||| (s.status.lastOp.setWidth 32 <<< 12) ||| ((ownerBits s.arb.owner).setWidth 32 <<< 16)
    ||| flagAt s.arb.reqP0 18 ||| flagAt s.arb.reqP1 19

/-- The flags of the common acceptance (R227). -/
def statusAccepted (op : BitVec 4) (f : Status) : Status :=
  { f with busy := true, done := false, ovr := false, err := .none, cause := .none, lastOp := op }

/-- The flags of a finish (R232). -/
def statusFinished (err : ErrCode) (cause : Cause) (f : Status) : Status :=
  { f with busy := false, done := true, err := err, cause := cause }

/-- The flags of an illegal command's refusal (R225). -/
def statusIllegal (op : BitVec 4) (f : Status) : Status :=
  { f with lastOp := op, done := true, err := .illegalCmd, cause := .none, ovr := false }

/-- The flags of a dropped command (R226). -/
def statusDropped (f : Status) : Status := { f with ovr := true }

end Sys2Proof.Machine
end

