-- ==== Sys2Proof/Machine/Ops.lean ====
section
/-! DEFINITION. The shared operations: acceptance, drop, refusal, finish and raise (spec/44_command_control.md R225 to
R232, spec/60_exceptions.md R246), the header's clearing (spec/40_header_parse.md R131), the sink write
(spec/20_memory.md R70) and reset (spec/70_reset_and_hazards.md R271). -/

namespace Sys2Proof.Machine

/-- `Latch()` (R228). -/
def latch (s : State) : State := { s with latOx := s.originX, latOy := s.originY, latCin := s.convIn }

/-- `Accept(op)`, the common acceptance (R227). It is also the only way out of an error but reset: there is no return
from an error, and the next acceptance clears ERR, CAUSE and ERR_INFO (R250). -/
def accept (op : BitVec 4) (s : State) : State :=
  latch { s with status := statusAccepted op s.status, errInfo := 0 }

/-- `Drop(word)` (R226): the word is lost. -/
def drop (s : State) : State := { s with status := statusDropped s.status }

/-- `Illegal(word)` (R225). -/
def refuseIllegal (word : Word) (s : State) : State :=
  { s with status := statusIllegal (cmdOp word) s.status, errInfo := word }

/-- `finish(err, cause, info)` (R232). -/
def finish (err : ErrCode) (cause : Cause) (info : Word) (s : State) : State :=
  { s with status := statusFinished err cause s.status, errInfo := info, fsm := .idle }

/-- `raise E(cause, info)` (R7, R246): an error's whole entry. Nothing is saved and nothing is vectored; the error ends
the command and stands in ERR, CAUSE and ERR_INFO. -/
def raise (r : Raise) (s : State) : State := finish r.err r.cause r.info s

/-- A write of a command word other than 0 by the HOST (R223): dropped while BUSY is 1, else accepted with the opcode
`op`, after which the command's own acceptance runs in the same step. -/
def command (op : BitVec 4) (own : State → State) (s : State) : State :=
  if s.status.busy then drop s else own (accept op s)

/-- Every HDR register and HDR_VALID to 0, as the acceptance of PARSE and DECODE_BLIT does (R131, R151). -/
def clearHeader (s : State) : State :=
  { s with hdr := .zero, status := { s.status with hdrValid := false } }

/-- `SinkWrite(x, y, c)` and the EXT client's event alike: append to HIST (R70, R205). -/
def sinkAppend (e : SinkEvent) (s : State) : State := { s with hist := s.hist ++ [e] }

/-- Give the sink back from port P0 (R160, R200). -/
def releaseP0 (s : State) : State := { s with arb := { s.arb with owner := none, reqP0 := false } }

/-- Reset, one step (R270, R271): every piece of block state to its reset value. HIST is not block state (R273), the
parameters are constant, and the model's own fields are the environment's. -/
def resetBlock (s : State) : State :=
  { State.launch s.config with
      hist := s.hist, replies := s.replies, turns := s.turns, draws := s.draws, hostDone := s.hostDone }

end Sys2Proof.Machine
end

