-- ==== Sys2Proof/Machine/Arbitration.lean ====
section
/-! DEFINITION. The arbiter's grant and the EXT client's steps (spec/43_write_arbiter.md R195 to R207). An agent whose
step is not enabled holds: nothing changes (R7, R207; log 1). -/

namespace Sys2Proof.Machine

/-- The port the grant step gives the sink to, if it gives it to any (R198, R199). -/
def grantee (p : ArbPriority) (a : Arbiter) : Option Port :=
  if a.owner ≠ none then none
  else if a.reqP0 && a.reqP1 then
    match p with
    | .p0First => some .p0
    | .p1First => some .p1
  else if a.reqP0 then some .p0
  else if a.reqP1 then some .p1
  else none

/-- `Grant` (R198): it sets OWNER and nothing else. -/
def grantStep (s : State) : State :=
  match grantee s.config.arbPriority s.arb with
  | some p => { s with arb := { s.arb with owner := some p } }
  | none => s

/-- `ExtRequest` (R204). -/
def extRequest (s : State) : State :=
  if s.arb.reqP1 then s else { s with arb := { s.arb with reqP1 := true } }

/-- The event an EXT call enters HIST as, unchanged but for its port (R205). -/
def extEvent (call : ExtCall) : SinkEvent :=
  match call with
  | .setPixel x y c => .pix .p1 x y c
  | .other name args => .op name args

/-- `ExtOp(e)` (R205): it needs the sink and SINK_READY (R202). -/
def extOp (ready : Bool) (call : ExtCall) (s : State) : State :=
  if s.arb.owner = some .p1 ∧ ready then sinkAppend (extEvent call) s else s

/-- `ExtRelease` (R206). -/
def extRelease (s : State) : State :=
  if s.arb.owner = some .p1 then { s with arb := { s.arb with owner := none, reqP1 := false } } else s

end Sys2Proof.Machine
end

