-- ==== Sys2Proof/Machine/Convert.lean ====
section
/-! DEFINITION. The colour depth converter and CONVERT (spec/42_color_convert.md R180 to R184). -/

namespace Sys2Proof.Machine

/-- `Pack565(red, green, blue)` (R182): channels truncated (R181), packed as RGB565 (R86). -/
def pack565 (red green blue : Byte) : Half :=
  ((red.extractLsb' 3 5).setWidth 16 <<< 11) ||| ((green.extractLsb' 2 6).setWidth 16 <<< 5)
    ||| (blue.extractLsb' 3 5).setWidth 16

/-- CONVERT's own acceptance (R183). -/
def acceptConvert (s : State) : State := { s with fsm := .conv }

/-- CONVERT: the HOST step that writes its word (R183, R223). The conversion is the ENGINE's (log 11). -/
def execConvert (s : State) : Host.Outcome State Fault Refusal := .next (command 4 acceptConvert s)

/-- `ConvStep` (R183): red is LAT_CIN bits 23:16, green 15:8, blue 7:0. -/
def convStep (s : State) : State :=
  finish .none .none 0
    { s with convOut :=
        pack565 (s.latCin.extractLsb' 16 8) (s.latCin.extractLsb' 8 8) (s.latCin.extractLsb' 0 8) }

end Sys2Proof.Machine
end

