-- ==== Sys2Proof/Machine/Parse.lean ====
section
/-! DEFINITION. PARSE and the parse step (spec/40_header_parse.md R130 to R141). -/

namespace Sys2Proof.Machine

/-- PARSE's own acceptance (R131). -/
def acceptParse (s : State) : State := { clearHeader s with thenBlit := false, fsm := .parse }

/-- PARSE: the HOST step that writes its word (R130, R223). The parse itself is the ENGINE's (log 11). -/
def execParse (s : State) : Host.Outcome State Fault Refusal := .next (command 1 acceptParse s)

/-- INVALID_FORMAT with a cause and the offset of the failing field (R241). -/
def invalidFormat (cause : Cause) (offset : Word) : Raise := { err := .invalidFormat, cause := cause, info := offset }

/-- A check of the parse step: nothing, or its raise. -/
def check (ok : Bool) (r : Raise) : Except Raise Unit := if ok then .ok () else .error r

/-- The parse step's reads and checks, in byte order, up to the first failure (R132). Bytes 6 to 9 are not read. -/
def parseHeader (m : Memory) : Except Raise Header := do
  let magic ← read16 m 0
  check (magic == 0x4D42) (invalidFormat .magic 0)
  let fs ← read32 m 2
  let po ← read32 m 10
  let hs ← read32 m 14
  let w ← read32 m 18
  let h ← read32 m 22
  let pl ← read16 m 26
  check (pl == 1) (invalidFormat .planes 26)
  let bp ← read16 m 28
  let cm ← read32 m 30
  check (cm == 0) (invalidFormat .compression 30)
  return { fileSize := fs, pixelOffset := po, headerSize := hs, width := w, height := h, planesBpp := bp ++ pl,
           compression := cm }

/-- `Commit` (R138): the whole header at once, then BLIT_CHECK for DECODE_BLIT or the finish for PARSE. -/
def commit (h : Header) (s : State) : State :=
  let s1 := { s with hdr := h, status := { s.status with hdrValid := true } }
  if s1.thenBlit then { s1 with fsm := .blitCheck } else finish .none .none 0 s1

/-- `ParseStep` (R132, R138, R139). -/
def parseStep (s : State) : State :=
  match parseHeader s.config.img with
  | .ok h => commit h s
  | .error r => raise r s

end Sys2Proof.Machine
end

