-- ==== Sys2Proof/Machine/Blit.lean ====
section
/-! DEFINITION. BLIT, DECODE_BLIT, the BLIT_CHECK step and the pixel step (spec/41_raster_blit.md R150 to R163). -/

namespace Sys2Proof.Machine

/-- BLIT's own acceptance (R150). THEN_BLIT keeps its value (log 18). -/
def acceptBlit (s : State) : State := { s with pixCount := 0, fsm := .blitCheck }

/-- BLIT: the HOST step that writes its word (R150, R223). The walk is the ENGINE's (log 11). -/
def execBlit (s : State) : Host.Outcome State Fault Refusal := .next (command 2 acceptBlit s)

/-- DECODE_BLIT's own acceptance (R151). -/
def acceptDecodeBlit (s : State) : State :=
  { clearHeader { s with pixCount := 0 } with thenBlit := true, fsm := .parse }

/-- DECODE_BLIT: the HOST step that writes its word (R151, R223). The parse and the walk are the ENGINE's (log 11). -/
def execDecodeBlit (s : State) : Host.Outcome State Fault Refusal := .next (command 3 acceptDecodeBlit s)

/-- The start of a non-empty walk (R154). -/
def startWalk (s : State) : State :=
  { s with row := s.hdr.height, col := 0, cursor := s.hdr.pixelOffset, arb := { s.arb with reqP0 := true },
           fsm := .blitPix }

/-- `BlitCheck`: the header gate (R152), the empty walk (R155), the extent check (R153), the start (R154), in that
order. -/
def blitCheck (s : State) : State :=
  if s.status.hdrValid = false then raise { err := .noHeader, cause := .none, info := 0 } s
  else if rasterW s < 1 ∨ rasterH s < 1 then finish .none .none 0 s
  else if rasterEnd s > imgLen s.config.img then raise (overrun (rasterEnd s).toNat) s
  else startWalk s

/-- `WalkEnd` (R160): the release and the finish. -/
def walkEnd (s : State) : State := finish .none .none 0 (releaseP0 s)

/-- The step's advance to the next pixel in walk order, or the walk end (R157). -/
def advance (s : State) : State :=
  if s32 s.col + 1 < rasterW s then { s with col := wrap32 (s32 s.col + 1) }
  else if s32 s.row > 1 then { s with col := 0, row := wrap32 (s32 s.row - 1) }
  else walkEnd { s with col := 0, row := 0 }

/-- `PixelStep`'s effect with the sample bytes `b`, `g`, `r` (R157): blue first in the buffer (R180). -/
def writePixel (b g r : Byte) (s : State) : State :=
  let s1 := sinkAppend (.pix .p0 (xcoord s) (ycoord s) (pack565 r g b)) s
  advance { s1 with cursor := s1.cursor + 3, pixCount := s1.pixCount + 1 }

/-- `PixelStep` (R157), for an ENGINE that owns a ready sink. The read never overruns in a state a run reaches (R153);
elsewhere the overrun is what R61 says it is (log 9). -/
def pixelStep (s : State) : State :=
  match readBytes s.config.img (u32 s.cursor) 3 with
  | .ok bs => writePixel (bs.getD 0 0) (bs.getD 1 0) (bs.getD 2 0) s
  | .error r => raise r s

end Sys2Proof.Machine
end

