-- ==== Sys2Proof/Machine/Engine.lean ====
section
/-! DEFINITION. The ENGINE's step (spec/44_command_control.md R234). -/

namespace Sys2Proof.Machine

/-- The pixel step's condition: P0 owns the sink and SINK_READY is drawn true (R157, R202). -/
def pixelEnabled (ready : Bool) (s : State) : Bool := s.arb.owner == some .p0 && ready

/-- The ENGINE's step, with the draw of SINK_READY. An ENGINE with no step holds (R7, R157). -/
def engineStep (ready : Bool) (s : State) : State :=
  match s.fsm with
  | .idle => s
  | .parse => parseStep s
  | .blitCheck => blitCheck s
  | .blitPix => if pixelEnabled ready s then pixelStep s else s
  | .conv => convStep s

end Sys2Proof.Machine
end

