-- ==== Sys2Proof/Machine/Control.lean ====
section
/-! DEFINITION. NOP (spec/44_command_control.md R224). -/

namespace Sys2Proof.Machine

/-- NOP: nothing, in any state, even while BUSY is 1 (R224, R98). -/
def execNop (s : State) : Host.Outcome State Fault Refusal := .next s

end Sys2Proof.Machine
end

