-- ==== Sys2Proof/Machine/Dispatch.lean ====
section
/-! DEFINITION. The meaning of each command: the HOST step that writes its word to CMD. -/

namespace Sys2Proof.Machine

def exec (i : Instr) (s : State) : Host.Outcome State Fault Refusal :=
  match i with
  | .nop => Sys2Proof.Machine.execNop s
  | .parse => Sys2Proof.Machine.execParse s
  | .blit => Sys2Proof.Machine.execBlit s
  | .decodeBlit => Sys2Proof.Machine.execDecodeBlit s
  | .convert => Sys2Proof.Machine.execConvert s

end Sys2Proof.Machine
end

