-- ==== Sys2Proof/Machine/HostPort.lean ====
section
/-! DEFINITION. The HOST's register port (spec/44_command_control.md R220 to R230): reads, writes, and the decode of a
CMD write. Every access is allowed in every state (R222). -/

namespace Sys2Proof.Machine

/-- The word a read of a register returns (R22, R220, R231). -/
def readReg (r : Reg) (s : State) : Word :=
  match r with
  | .cmd => 0
  | .status => statusWord s
  | .originX => s.originX
  | .originY => s.originY
  | .convIn => s.convIn.setWidth 32
  | .convOut => s.convOut.setWidth 32
  | .hdrFileSize => s.hdr.fileSize
  | .hdrPixelOffset => s.hdr.pixelOffset
  | .hdrHeaderSize => s.hdr.headerSize
  | .hdrWidth => s.hdr.width
  | .hdrHeight => s.hdr.height
  | .hdrPlanesBpp => s.hdr.planesBpp
  | .hdrCompression => s.hdr.compression
  | .pixCount => s.pixCount
  | .errInfo => s.errInfo
  | .imgLenR => s.config.img.len
  | .cursor => s.cursor

/-- The word a read of index `w` returns: 0 at a reserved offset (R51, R220). -/
def readWindow (w : BitVec 6) (s : State) : Word :=
  match regAt w with
  | some r => readReg r s
  | none => 0

/-- `RD w` (R220): no state of the block changes; the value goes to the HOST (log 7). -/
def hostRead (w : BitVec 6) (s : State) : State :=
  { s with replies := s.replies ++ [{ w := w, value := readWindow w s }] }

/-- `HostWriteCMD(word)` (R223). The word 0 is NOP before the busy test; a command's meaning makes that test itself; an
illegal word is dropped while BUSY is 1 and refused otherwise. -/
def hostWriteCmd (word : Word) (s : State) : Host.Outcome State Fault Refusal :=
  match decode word with
  | .ok i => exec i s
  | .error _ => .next (if s.status.busy then drop s else refuseIllegal word s)

/-- `HostWrite(w, data)` (R221): a write to a read-only register, to STATUS or to a reserved offset is ignored. -/
def hostWrite (w : BitVec 6) (data : Word) (s : State) : Host.Outcome State Fault Refusal :=
  match regAt w with
  | some .cmd => hostWriteCmd data s
  | some .originX => .next { s with originX := data }
  | some .originY => .next { s with originY := data }
  | some .convIn => .next { s with convIn := data.extractLsb' 0 24 }
  | _ => .next s

/-- One HOST access (R90). -/
def hostStep (access : HostAccess) (s : State) : Host.Outcome State Fault Refusal :=
  match access with
  | .rd w => .next (hostRead w s)
  | .wr w data => hostWrite w data s

end Sys2Proof.Machine
end

