-- ==== Sys2Proof/Machine/Turns.lean ====
section
/-! DEFINITION. Whose step is next, and that agent's step (spec/00_scope.md R8). -/

namespace Sys2Proof.Machine

/-- Whether a turn is a HOST access. -/
def isHostTurn (t : Turn) : Bool :=
  match t.action with
  | .host _ => true
  | _ => false

/-- A free turn as it is taken: once the HOST has no further access to make, no free turn is one (R233; log 21). -/
def offered (hostDone : Bool) (t : Turn) : Turn :=
  if hostDone && isHostTurn t then { t with action := .hostDone } else t

/-- The next turn and the state it is taken in: the first turn laid down, or else a free turn (R8; log 1, log 2). -/
def takeTurn (s : State) : Turn × State :=
  match s.turns with
  | t :: rest => (t, { s with turns := rest })
  | [] => (offered s.hostDone (Config.freeTurn s.draws), { s with draws := s.draws + 1 })

/-- One agent's atomic step (R8). -/
def perform (t : Turn) (s : State) : Host.Outcome State Fault Refusal :=
  match t.action with
  | .engine => .next (engineStep t.sinkReady s)
  | .arb => .next (grantStep s)
  | .host access => hostStep access s
  | .hostDone => .next { s with hostDone := true }
  | .extRequest => .next (extRequest s)
  | .extOp call => .next (extOp t.sinkReady call s)
  | .extRelease => .next (extRelease s)
  | .reset => .next (resetBlock s)

/-- The state `s` with one more turn laid down in front: its next step is that turn's. -/
def placeTurn (ready : Bool) (a : Action) (s : State) : State :=
  { s with turns := { sinkReady := ready, action := a } :: s.turns }

end Sys2Proof.Machine
end

