-- ==== Sys2Proof/Machine/Step.lean ====
section
/-! DEFINITION. One step of the machine: the agent whose turn it is takes its atomic step (spec/00_scope.md R8). -/

namespace Sys2Proof.Machine

/-- One step. -/
def step (s : State) : Host.Outcome State Fault Refusal :=
  perform (takeTurn s).1 (takeTurn s).2

/-- `s` with the HOST's write of a row's command word to CMD laid down as its next turn: the block fetches nothing, and
its program is the sequence of HOST command writes (R75; log 3). The draw is not read by a HOST step. -/
def State.withFetchWord (s : State) (nbits w : Nat) : State :=
  placeTurn true (.host (.wr 0 (tableWord nbits w))) s

end Sys2Proof.Machine
end

