-- ==== Sys2Proof/Machine/Script.lean ====
section
/-! DEFINITION. The host-script syntax (spec/30_encoding.md R100 to R102): a script line stands for a list of HOST
accesses. -/

namespace Sys2Proof.Machine

/-- `<reg>` (R100): a register's name, or a byte offset `0xNN` of the window. -/
inductive RegRef where
  | named (r : Reg)
  | offset (byte : BitVec 8)
deriving DecidableEq, Repr

/-- One line of a host script: a comment or an access (R100), or a pseudo-instruction (R101). -/
inductive ScriptLine where
  | comment (text : String)
  | wr (reg : RegRef) (value : Word)
  | rd (reg : RegRef)
  | cmd (i : Instr)
  | wait
  | blitAt (x y : Word)
  | decodeAt (x y : Word)
  | conv (r g b : Word)
deriving DecidableEq, Repr

/-- The word index of a `<reg>` (R90, R102): `w` for the offset `4w`. An offset that is no multiple of 4 has none: the
port cannot carry it (R51, R67; log 16). -/
def refIndex (reg : RegRef) : Option (BitVec 6) :=
  match reg with
  | .named r => some (regIndex r)
  | .offset byte => if byte.extractLsb' 0 2 = 0 then some (byte.extractLsb' 2 6) else none

/-- `WR` of a named register, as the pseudo-instructions use it (R101). -/
def writeReg (r : Reg) (value : Word) : HostAccess := .wr (regIndex r) value

/-- `RD` of a named register, as the pseudo-instructions use it (R101). -/
def readOf (r : Reg) : HostAccess := .rd (regIndex r)

/-- `CMD <mnemonic>` (R101). -/
def cmdAccess (i : Instr) : HostAccess := writeReg .cmd (encode i)

/-- `WAIT` as `polls` reads of STATUS (R101). How many a run takes depends on the other agents: see `waitEnds`. -/
def waitAccesses (polls : Nat) : List HostAccess := List.replicate polls (readOf .status)

/-- The accesses of a line, with `polls` reads for its `WAIT` if it has one (R100, R101; log 13), or none where the
line's offset is not on the port (log 16). A comment stands for no access. The spec gives the operands of `CONV` no
range: that they are 32-bit words and that the value written is cut to 32 bits is the model's choice (DESIGN CHOICE,
log 22). -/
def expandLine (polls : Nat) (l : ScriptLine) : Option (List HostAccess) :=
  match l with
  | .comment _ => some []
  | .wr reg value => (refIndex reg).map (fun w => [.wr w value])
  | .rd reg => (refIndex reg).map (fun w => [.rd w])
  | .cmd i => some [cmdAccess i]
  | .wait => some (waitAccesses polls)
  | .blitAt x y => some ([writeReg .originX x, writeReg .originY y, cmdAccess .blit] ++ waitAccesses polls)
  | .decodeAt x y => some ([writeReg .originX x, writeReg .originY y, cmdAccess .decodeBlit] ++ waitAccesses polls)
  | .conv r g b =>
    some ([writeReg .convIn ((r <<< 16) ||| (g <<< 8) ||| b), cmdAccess .convert] ++ waitAccesses polls
      ++ [readOf .convOut])

/-- The accesses of a script, one line after another, each with its number of polls (R100; log 13). -/
def expandScript : List (Nat × ScriptLine) → Option (List HostAccess)
  | [] => some []
  | (polls, l) :: rest =>
    match expandLine polls l, expandScript rest with
    | some as, some bs => some (as ++ bs)
    | _, _ => none

/-- The values a WAIT's reads returned end it: BUSY is 0 in the last and 1 in every earlier one (R101). -/
def waitEnds : List Word → Bool
  | [] => false
  | [v] => !v.getLsbD 0
  | v :: rest => v.getLsbD 0 && waitEnds rest

end Sys2Proof.Machine
end

