-- ==== Sys2Proof/Safety.lean ====
section
/-! DEFINITION. The terms statements are made in: the next turn, when a run has ended (spec/44_command_control.md R233),
the closed form of a walk's output (spec/41_raster_blit.md R162), and the invariant of the machine. -/

namespace Sys2Proof.Machine

/-- The turn the next step takes: laid down or free (R8). -/
def nextTurn (s : State) : Turn := (takeTurn s).1

/-- The HOST has no further access to make (R233): none is laid down, and none comes as a free turn (log 21). -/
def hostFinished (s : State) : Prop := s.hostDone = true ∧ s.turns.all (fun t => !isHostTurn t) = true

/-- A run has ended (R233): the ENGINE is idle, P0 neither asks for nor owns the sink, and the HOST has no further
access to make. -/
def runEnded (s : State) : Prop :=
  s.fsm = .idle ∧ s.arb.reqP0 = false ∧ s.arb.owner ≠ some .p0 ∧ hostFinished s

/-- The register window as the HOST reads it, offset 0 first (R233). -/
def window (s : State) : List Word := (List.range Config.csrWords).map (fun k => readWindow (BitVec.ofNat 6 k) s)

/-- The port an event entered HIST from (R88). -/
def eventPort (e : SinkEvent) : Port :=
  match e with
  | .pix p _ _ _ => p
  | .op _ _ => .p1

/-- Event number `k` of the walk that the header, the latches and the image of `s` describe (R162). -/
def walkEvent (s : State) (k : Nat) : SinkEvent :=
  let col : Nat := k % (rasterW s).toNat
  let line : Nat := k / (rasterW s).toNat
  let a : Nat := u32 s.hdr.pixelOffset + 3 * k
  .pix .p0 (wrap32 (if s.config.originXAdd then s32 s.latOx + col else col))
    (wrap32 (rasterH s - line + s32 s.latOy))
    (pack565 (imgByte s.config.img (a + 2)) (imgByte s.config.img (a + 1)) (imgByte s.config.img a))

/-- The first `n` events of that walk, in order (R162). -/
def walkEvents (s : State) (n : Nat) : List SinkEvent := (List.range n).map (walkEvent s)

/-- The number of pixels of the raster, `W * H` (R156). -/
def pixelTotal (s : State) : Nat := (rasterW s * rasterH s).toNat

/-- The number of the next pixel in walk order, from ROW and COL (R156). -/
def walkIndex (s : State) : Int := (rasterH s - s32 s.row) * rasterW s + s32 s.col

/-- What holds between the start of a walk and its end (R153, R156, R157). -/
structure WalkInv (s : State) : Prop where
  valid : s.status.hdrValid = true
  width_pos : 1 ≤ rasterW s
  height_pos : 1 ≤ rasterH s
  fits : rasterEnd s ≤ imgLen s.config.img
  row_pos : 1 ≤ s32 s.row
  row_le : s32 s.row ≤ rasterH s
  col_nonneg : 0 ≤ s32 s.col
  col_lt : s32 s.col < rasterW s
  cursor_eq : (u32 s.cursor : Int) = u32 s.hdr.pixelOffset + 3 * walkIndex s
  count_eq : (u32 s.pixCount : Int) = walkIndex s

/-- What holds of ERR, CAUSE, ERR_INFO and LAST_OP in every state (R29 to R31, R48, R240 to R244). -/
structure ErrInv (s : State) : Prop where
  cause_none : s.status.err ≠ .invalidFormat → s.status.cause = .none
  info_none : s.status.err = .none → s.errInfo = 0
  info_format : s.status.err = .invalidFormat →
    (s.status.cause = .magic ∧ s.errInfo = 0) ∨ (s.status.cause = .planes ∧ s.errInfo = 26) ∨
      (s.status.cause = .compression ∧ s.errInfo = 30)
  info_truncated : s.status.err = .truncatedData → imgLen s.config.img < u32 s.errInfo ∨ s.errInfo = 0xFFFFFFFF
  info_noHeader : s.status.err = .noHeader → s.errInfo = 0
  info_illegal : s.status.err = .illegalCmd → wordLegal s.errInfo = false ∧ s.status.lastOp = cmdOp s.errInfo
  op_format : s.status.err = .invalidFormat → s.status.lastOp = 1 ∨ s.status.lastOp = 3
  op_truncated : s.status.err = .truncatedData → s.status.lastOp = 1 ∨ s.status.lastOp = 2 ∨ s.status.lastOp = 3
  op_noHeader : s.status.err = .noHeader → s.status.lastOp = 2
  done_of_err : s.status.err ≠ .none → s.status.done = true

/-- The invariant of the machine: it holds after launch and every step of every agent keeps it. -/
structure Inv (s : State) : Prop where
  /-- The image is in canonical form (log 5). -/
  image : s.config.img.wf = true
  /-- FSM = IDLE exactly when BUSY is 0 (R52). -/
  idle_iff : s.fsm = .idle ↔ s.status.busy = false
  /-- While a command runs, it has no outcome yet (R227, R278). -/
  busy_clear : s.status.busy = true → s.status.done = false ∧ s.status.err = .none
  err : ErrInv s
  /-- A valid header passed the checks that leave a trace (R27, R45, R46). -/
  header_checked : s.status.hdrValid = true → s.hdr.planesBpp.extractLsb' 0 16 = 1 ∧ s.hdr.compression = 0
  /-- Where no header is valid, the HDR registers are 0 (R131, R139, R271). -/
  header_zero : s.status.hdrValid = false → s.hdr = .zero
  /-- A header is not valid while its parse is pending (R131). -/
  parse_invalid : s.fsm = .parse → s.status.hdrValid = false
  /-- The command that is being parsed (R31, R53). -/
  parse_op : s.fsm = .parse → s.status.lastOp = if s.thenBlit then 3 else 1
  /-- A parse for a blit starts from PIX_COUNT = 0 (R151). -/
  parse_count : s.fsm = .parse → s.thenBlit = true → s.pixCount = 0
  /-- BLIT_CHECK starts from PIX_COUNT = 0 (R150, R151). -/
  check_count : s.fsm = .blitCheck → s.pixCount = 0
  /-- BLIT_CHECK belongs to BLIT, or to a DECODE_BLIT whose parse succeeded (R150, R151). -/
  check_op : s.fsm = .blitCheck → s.status.lastOp = 2 ∨ (s.status.lastOp = 3 ∧ s.status.hdrValid = true)
  /-- A walk belongs to BLIT or DECODE_BLIT (R150, R151). -/
  walk_op : s.fsm = .blitPix → s.status.lastOp = 2 ∨ s.status.lastOp = 3
  conv_op : s.fsm = .conv → s.status.lastOp = 4
  /-- The ENGINE asks for the sink exactly during a walk (R33, R197). -/
  request_iff : s.arb.reqP0 = true ↔ s.fsm = .blitPix
  /-- An owner has its request set (R196). -/
  owner_p0 : s.arb.owner = some .p0 → s.arb.reqP0 = true
  owner_p1 : s.arb.owner = some .p1 → s.arb.reqP1 = true
  walk : s.fsm = .blitPix → WalkInv s

/-- A walk that owns the sink, begun when HIST was `h0`: since then HIST has gained exactly the walk's events up to
the next pixel (R162, R203). -/
def GrantedWalk (h0 : List SinkEvent) (s : State) : Prop :=
  s.fsm = .blitPix ∧ s.arb.owner = some .p0 ∧ s.hist = h0 ++ walkEvents s (walkIndex s).toNat

end Sys2Proof.Machine
end

