-- ==== Sys2Proof/Certificates/Slice0/Obligations.lean ====
section
/-! DEFINITION. The statements for the provers. A statement about one agent's step is made of `step` on a state with
that agent's turn laid down next (`placeTurn`); its next state is written out over the state `s` the turn is taken in,
so it says the whole frame too: every register, flag and list not written out is as it was in `s`. -/

open Sys2Proof Sys2Proof.Machine

/-! ### The command word -/

/-- R96: a word selects a command exactly when it is the command's own word, every bit of it. -/
def Obligations.DecodeReadsExactlyTheTableWords : Prop :=
  ∀ (word : Word) (i : Instr), decode word = .ok i ↔
    word.toNat = (match i with | .nop => 0 | .parse => 1 | .blit => 2 | .decodeBlit => 3 | .convert => 4)

/-- R96: decode and encode agree, both ways: each command has one word and that word alone. -/
def Obligations.DecodeAndEncodeAgree : Prop :=
  ∀ (word : Word) (i : Instr), (decode word = .ok i ↔ word = encode i) ∧ decode (encode i) = .ok i ∧
    decodeTableWord 32 (encode i).toNat = some i

/-- R97: the refused words are those with a reserved bit set or an opcode from 5 to 15. -/
def Obligations.ReservedWordsAreNoCommand : Prop :=
  ∀ word : Word, (∃ e, decode word = .error e) ↔ (word.toNat / 16 ≠ 0 ∨ 5 ≤ word.toNat % 16)

/-- R96, words written out bit by bit from the table. -/
def Obligations.SampleWordsDecode : Prop :=
  decode 0b00000000000000000000000000000000#32 = .ok .nop ∧ decode 0b00000000000000000000000000000001#32 = .ok .parse ∧
  decode 0b00000000000000000000000000000010#32 = .ok .blit ∧
  decode 0b00000000000000000000000000000011#32 = .ok .decodeBlit ∧
  decode 0b00000000000000000000000000000100#32 = .ok .convert ∧
  decode 0b00000000000000000000000000000101#32 = .error .reservedOpcode ∧
  decode 0b00000000000000000000000000010000#32 = .error .reservedBits

/-- A step whose turn is the HOST's write of a command's word is `exec` of that command, and nothing around it. That a
program comes to run by such a turn is the model's choice (log 3). -/
def Obligations.StepRunsTheDecodedCommand : Prop :=
  ∀ (s : State) (ready : Bool) (word : Word) (i : Instr), decode word = .ok i →
    step (placeTurn ready (.host (.wr 0 word)) s) = exec i s ∧ step (s.withFetchWord 32 word.toNat) = exec i s

/-- R223: the order of the tests on a CMD write. -/
def Obligations.CommandWriteIsTestedInOrder : Prop :=
  ∀ (s : State) (ready : Bool) (word : Word),
    step (placeTurn ready (.host (.wr 0 word)) s) =
      if word.toNat = 0 then .next s
      else if s.status.busy = true then .next { s with status := { s.status with ovr := true } }
      else if word.toNat / 16 ≠ 0 ∨ 5 ≤ word.toNat % 16 then
        .next { s with errInfo := word, status := { s.status with lastOp := BitVec.ofNat 4 word.toNat, done := true, err := .illegalCmd, cause := .none, ovr := false } }
      else if word.toNat = 1 then exec .parse s
      else if word.toNat = 2 then exec .blit s
      else if word.toNat = 3 then exec .decodeBlit s
      else exec .convert s

/-! ### What each command does when it is written -/

/-- R224, R98: NOP changes nothing, in any state. -/
def Obligations.NopChangesNothing : Prop :=
  ∀ (s : State) (ready : Bool), exec .nop s = .next s ∧ step (placeTurn ready (.host (.wr 0 0)) s) = .next s

/-- R131, R227, R228: what an accepted PARSE leaves. -/
def Obligations.ParseIsAccepted : Prop :=
  ∀ s : State, s.status.busy = false →
    exec .parse s = .next { s with
      status := { busy := true, done := false, hdrValid := false, ovr := false, err := .none, cause := .none, lastOp := 1 }
      errInfo := 0, latOx := s.originX, latOy := s.originY, latCin := s.convIn
      hdr := { fileSize := 0, pixelOffset := 0, headerSize := 0, width := 0, height := 0, planesBpp := 0, compression := 0 }
      thenBlit := false, fsm := .parse }

/-- R150's acceptance, with R227 and R228: what an accepted BLIT leaves. That THEN_BLIT keeps its value is read from the
spec by inference (log 18). -/
def Obligations.BlitIsAccepted : Prop :=
  ∀ s : State, s.status.busy = false →
    exec .blit s = .next { s with
      status := { s.status with busy := true, done := false, ovr := false, err := .none, cause := .none, lastOp := 2 }
      errInfo := 0, latOx := s.originX, latOy := s.originY, latCin := s.convIn, pixCount := 0, fsm := .blitCheck }

/-- R151's acceptance, with R227 and R228: what an accepted DECODE_BLIT leaves. -/
def Obligations.DecodeBlitIsAccepted : Prop :=
  ∀ s : State, s.status.busy = false →
    exec .decodeBlit s = .next { s with
      status := { busy := true, done := false, hdrValid := false, ovr := false, err := .none, cause := .none, lastOp := 3 }
      errInfo := 0, latOx := s.originX, latOy := s.originY, latCin := s.convIn, pixCount := 0
      hdr := { fileSize := 0, pixelOffset := 0, headerSize := 0, width := 0, height := 0, planesBpp := 0, compression := 0 }
      thenBlit := true, fsm := .parse }

/-- R183's acceptance, with R227 and R228: what an accepted CONVERT leaves. That THEN_BLIT keeps its value is read from
the spec by inference (log 18). -/
def Obligations.ConvertIsAccepted : Prop :=
  ∀ s : State, s.status.busy = false →
    exec .convert s = .next { s with
      status := { s.status with busy := true, done := false, ovr := false, err := .none, cause := .none, lastOp := 4 }
      errInfo := 0, latOx := s.originX, latOy := s.originY, latCin := s.convIn, fsm := .conv }

/-- R228: every acceptance latches the three operands. -/
def Obligations.AcceptanceLatchesTheOperands : Prop :=
  ∀ (s : State) (i : Instr), i ≠ .nop → s.status.busy = false →
    ∃ t, exec i s = .next t ∧ t.latOx = s.originX ∧ t.latOy = s.originY ∧ t.latCin = s.convIn ∧
      t.originX = s.originX ∧ t.originY = s.originY ∧ t.convIn = s.convIn

/-- R226: a non-zero word written while BUSY is 1, command or illegal, only sets OVR. -/
def Obligations.WordWhileBusyIsDropped : Prop :=
  ∀ (s : State) (ready : Bool) (word : Word), s.status.busy = true → word ≠ 0 →
    step (placeTurn ready (.host (.wr 0 word)) s) = .next { s with status := { s.status with ovr := true } }

/-- R225: an illegal word written while BUSY is 0. -/
def Obligations.IllegalWordIsRefused : Prop :=
  ∀ (s : State) (ready : Bool) (word : Word), s.status.busy = false →
    (word.toNat / 16 ≠ 0 ∨ 5 ≤ word.toNat % 16) →
    step (placeTurn ready (.host (.wr 0 word)) s) = .next { s with
      status := { busy := false, done := true, hdrValid := s.status.hdrValid, ovr := false, err := .illegalCmd, cause := .none, lastOp := BitVec.ofNat 4 word.toNat }
      errInfo := word }

/-! ### The HOST's register port -/

/-- R220, with the map of R22: a read returns the register at offset 4w and changes no state of the block.
That the HOST's observation is recorded in `replies` is the model's choice (log 7). -/
def Obligations.HostReadReturnsTheMappedRegister : Prop :=
  ∀ (s : State) (ready : Bool) (w : BitVec 6) (v : Word), v =
      (if w = 1 then statusWord s else if w = 2 then s.originX else if w = 3 then s.originY
       else if w = 4 then BitVec.ofNat 32 s.convIn.toNat else if w = 5 then BitVec.ofNat 32 s.convOut.toNat
       else if w = 6 then s.hdr.fileSize else if w = 7 then s.hdr.pixelOffset else if w = 8 then s.hdr.headerSize
       else if w = 9 then s.hdr.width else if w = 10 then s.hdr.height else if w = 11 then s.hdr.planesBpp
       else if w = 12 then s.hdr.compression else if w = 13 then s.pixCount else if w = 14 then s.errInfo
       else if w = 15 then s.config.img.len else if w = 16 then s.cursor else 0) →
    step (placeTurn ready (.host (.rd w)) s) = .next { s with replies := s.replies ++ [{ w := w, value := v }] }

/-- R231: the value of STATUS, field by field. The fields do not overlap, so their sum is R231's bitwise or. -/
def Obligations.StatusReadsItsFields : Prop :=
  ∀ s : State, (statusWord s).toNat =
    s.status.busy.toNat + 2 * s.status.done.toNat + 4 * s.status.hdrValid.toNat + 8 * s.status.ovr.toNat
    + 16 * (match s.status.err with | .none => 0 | .invalidFormat => 1 | .truncatedData => 2 | .noHeader => 3 | .illegalCmd => 4)
    + 256 * (match s.status.cause with | .none => 0 | .magic => 1 | .planes => 2 | .compression => 3)
    + 4096 * s.status.lastOp.toNat
    + 65536 * (match s.arb.owner with | none => 0 | some .p0 => 1 | some .p1 => 2)
    + 262144 * s.arb.reqP0.toNat + 524288 * s.arb.reqP1.toNat

/-- R221, R229, R230: where a HOST write lands, and that every other write is ignored. -/
def Obligations.HostWriteLandsByOffset : Prop :=
  ∀ (s : State) (ready : Bool) (w : BitVec 6) (data : Word),
    step (placeTurn ready (.host (.wr w data)) s) =
      if w = 0 then hostWriteCmd data s
      else if w = 2 then .next { s with originX := data }
      else if w = 3 then .next { s with originY := data }
      else if w = 4 then .next { s with convIn := BitVec.ofNat 24 data.toNat }
      else .next s

/-- R102, R51: the word index of each named register, and no register from index 17 on. -/
def Obligations.WindowIndicesNameTheRegisters : Prop :=
  regIndex .cmd = 0 ∧ regIndex .status = 1 ∧ regIndex .originX = 2 ∧ regIndex .originY = 3 ∧ regIndex .convIn = 4 ∧
  regIndex .convOut = 5 ∧ regIndex .hdrFileSize = 6 ∧ regIndex .hdrPixelOffset = 7 ∧ regIndex .hdrHeaderSize = 8 ∧
  regIndex .hdrWidth = 9 ∧ regIndex .hdrHeight = 10 ∧ regIndex .hdrPlanesBpp = 11 ∧ regIndex .hdrCompression = 12 ∧
  regIndex .pixCount = 13 ∧ regIndex .errInfo = 14 ∧ regIndex .imgLenR = 15 ∧ regIndex .cursor = 16 ∧
  (∀ r : Reg, regAt (regIndex r) = some r) ∧ ∀ w : BitVec 6, regAt w = none ↔ 17 ≤ w.toNat

/-! ### The ENGINE -/

/-- R234: the ENGINE has a step exactly when R234's condition holds; without one it holds, and with one the state
changes. That a turn without a step is used up is the model's choice (log 1). -/
def Obligations.EngineStepsExactlyWhenEnabled : Prop :=
  ∀ (s : State) (ready : Bool), step (placeTurn ready .engine s) = .next s ↔
    ¬ (s.fsm = .parse ∨ s.fsm = .blitCheck ∨ s.fsm = .conv ∨
        (s.fsm = .blitPix ∧ s.arb.owner = some .p0 ∧ ready = true))

/-- R121, R122, R123: little-endian reads whose bounds are checked for the whole field. -/
def Obligations.FieldReadsAreLittleEndian : Prop :=
  ∀ (m : Memory) (n : Nat),
    read16 m n = (if n + 2 ≤ m.len.toNat then
        .ok (BitVec.ofNat 16 ((imgByte m n).toNat + 256 * (imgByte m (n + 1)).toNat))
      else .error { err := .truncatedData, cause := .none, info := BitVec.ofNat 32 (min (n + 2) 0xFFFFFFFF) }) ∧
    read32 m n = (if n + 4 ≤ m.len.toNat then
        .ok (BitVec.ofNat 32 ((imgByte m n).toNat + 256 * (imgByte m (n + 1)).toNat
          + 65536 * (imgByte m (n + 2)).toNat + 16777216 * (imgByte m (n + 3)).toNat))
      else .error { err := .truncatedData, cause := .none, info := BitVec.ofNat 32 (min (n + 4) 0xFFFFFFFF) })

/-- R132, R138 with the layout of R81: a header that passes every check is committed at once. -/
def Obligations.ParseStepCommitsAValidHeader : Prop :=
  ∀ (s : State) (ready : Bool) (b : Nat → Nat), (∀ a, b a = (imgByte s.config.img a).toNat) →
    s.fsm = .parse → 34 ≤ s.config.img.len.toNat → b 0 = 0x42 → b 1 = 0x4D → b 26 = 1 → b 27 = 0 →
    b 30 = 0 → b 31 = 0 → b 32 = 0 → b 33 = 0 →
    step (placeTurn ready .engine s) =
      let le (n : Nat) : Word := BitVec.ofNat 32 (b n + 256 * b (n + 1) + 65536 * b (n + 2) + 16777216 * b (n + 3))
      let h : Header := { fileSize := le 2, pixelOffset := le 10, headerSize := le 14, width := le 18, height := le 22, planesBpp := BitVec.ofNat 32 (1 + 65536 * (b 28 + 256 * b 29)), compression := 0 }
      if s.thenBlit = true then
        .next { s with hdr := h, status := { s.status with hdrValid := true }, fsm := .blitCheck }
      else
        .next { s with hdr := h, status := { s.status with hdrValid := true, busy := false, done := true, err := .none, cause := .none }, errInfo := 0, fsm := .idle }

/-- R133: a wrong magic ends the command with INVALID_FORMAT, cause MAGIC. -/
def Obligations.WrongMagicEndsTheParse : Prop :=
  ∀ (s : State) (ready : Bool), s.fsm = .parse → 2 ≤ s.config.img.len.toNat →
    ¬ (imgByte s.config.img 0 = 0x42 ∧ imgByte s.config.img 1 = 0x4D) →
    step (placeTurn ready .engine s) = .next { s with
      status := { s.status with busy := false, done := true, err := .invalidFormat, cause := .magic }
      errInfo := 0, fsm := .idle }

/-- R135: a plane count other than 1 ends the command with INVALID_FORMAT, cause PLANES, before bytes 28 to 33 are
read. -/
def Obligations.WrongPlaneCountEndsTheParse : Prop :=
  ∀ (s : State) (ready : Bool), s.fsm = .parse → 28 ≤ s.config.img.len.toNat →
    imgByte s.config.img 0 = 0x42 → imgByte s.config.img 1 = 0x4D →
    ¬ (imgByte s.config.img 26 = 1 ∧ imgByte s.config.img 27 = 0) →
    step (placeTurn ready .engine s) = .next { s with
      status := { s.status with busy := false, done := true, err := .invalidFormat, cause := .planes }
      errInfo := 26, fsm := .idle }

/-- R136: a compression other than 0 ends the command with INVALID_FORMAT, cause COMPRESSION. -/
def Obligations.CompressionEndsTheParse : Prop :=
  ∀ (s : State) (ready : Bool), s.fsm = .parse → 34 ≤ s.config.img.len.toNat →
    imgByte s.config.img 0 = 0x42 → imgByte s.config.img 1 = 0x4D →
    imgByte s.config.img 26 = 1 → imgByte s.config.img 27 = 0 →
    ¬ (imgByte s.config.img 30 = 0 ∧ imgByte s.config.img 31 = 0 ∧ imgByte s.config.img 32 = 0 ∧
        imgByte s.config.img 33 = 0) →
    step (placeTurn ready .engine s) = .next { s with
      status := { s.status with busy := false, done := true, err := .invalidFormat, cause := .compression }
      errInfo := 30, fsm := .idle }

/-- R137: an image that ends inside the header, where every earlier check passed; and no such error from an image of 34
bytes or more. -/
def Obligations.TruncatedHeaderReportsTheFieldEnd : Prop :=
  (∀ (s : State) (ready : Bool), s.fsm = .parse → 34 ≤ s.config.img.len.toNat → s.status.err ≠ .truncatedData →
    ∃ t, step (placeTurn ready .engine s) = .next t ∧ t.status.err ≠ .truncatedData) ∧
  ∀ (s : State) (ready : Bool) (n : Nat), n = s.config.img.len.toNat → s.fsm = .parse → n < 34 →
    (2 ≤ n → imgByte s.config.img 0 = 0x42 ∧ imgByte s.config.img 1 = 0x4D) →
    (28 ≤ n → imgByte s.config.img 26 = 1 ∧ imgByte s.config.img 27 = 0) →
    step (placeTurn ready .engine s) = .next { s with
      status := { s.status with busy := false, done := true, err := .truncatedData, cause := .none }
      errInfo := if n < 2 then 2 else if n < 6 then 6 else if n < 14 then 14 else if n < 18 then 18
        else if n < 22 then 22 else if n < 26 then 26 else if n < 28 then 28 else if n < 30 then 30 else 34
      fsm := .idle }

/-- R140: the parse step neither reads nor writes the operand registers, the latches, the progress registers or the
arbiter, and appends nothing to HIST: changing them before the step is changing them after it. Its only outputs are the
HDR registers, HDR_VALID and the finish's. -/
def Obligations.ParseStepIgnoresTheRest : Prop :=
  ∀ (s : State) (ready : Bool) (ox oy lx ly pc cu ro co : Word) (ci lc : BitVec 24) (cout : Half) (arb : Arbiter)
    (hist : List SinkEvent), s.fsm = .parse →
    ∃ t, step (placeTurn ready .engine s) = .next t ∧
      t = { s with hdr := t.hdr, status := { t.status with ovr := s.status.ovr, lastOp := s.status.lastOp }, errInfo := t.errInfo, fsm := t.fsm } ∧
      step (placeTurn ready .engine { s with originX := ox, originY := oy, latOx := lx, latOy := ly, latCin := lc, convIn := ci, convOut := cout, pixCount := pc, cursor := cu, row := ro, col := co, arb := arb, hist := hist }) =
        .next { t with originX := ox, originY := oy, latOx := lx, latOy := ly, latCin := lc, convIn := ci, convOut := cout, pixCount := pc, cursor := cu, row := ro, col := co, arb := arb, hist := hist }

/-- R83 and R134: the parse step's outcome depends on no byte past offset 33 and on none of bytes 6 to 9. -/
def Obligations.ParseReadsOnlyTheHeaderFields : Prop :=
  ∀ (s : State) (ready : Bool) (m : Memory), s.fsm = .parse → 34 ≤ s.config.img.len.toNat → 34 ≤ m.len.toNat →
    (∀ a, a < 34 → ¬ (6 ≤ a ∧ a ≤ 9) → imgByte m a = imgByte s.config.img a) →
    ∃ t, step (placeTurn ready .engine s) = .next t ∧
      step (placeTurn ready .engine { s with config := { s.config with img := m } }) =
        .next { t with config := { s.config with img := m } }

/-- R152, R155, R153, R154 in the order of R248: the whole BLIT_CHECK step. -/
def Obligations.BlitCheckGatesTheWalk : Prop :=
  ∀ (s : State) (ready : Bool) (w h e : Int), s.fsm = .blitCheck → w = s.hdr.width.toInt → h = s.hdr.height.toInt →
    e = s.hdr.pixelOffset.toNat + 3 * w * h →
    step (placeTurn ready .engine s) =
      if s.status.hdrValid = false then
        .next { s with status := { s.status with busy := false, done := true, err := .noHeader, cause := .none }, errInfo := 0, fsm := .idle }
      else if w < 1 ∨ h < 1 then
        .next { s with status := { s.status with busy := false, done := true, err := .none, cause := .none }, errInfo := 0, fsm := .idle }
      else if e > s.config.img.len.toNat then
        .next { s with status := { s.status with busy := false, done := true, err := .truncatedData, cause := .none }, errInfo := BitVec.ofInt 32 (min e 0xFFFFFFFF), fsm := .idle }
      else
        .next { s with row := s.hdr.height, col := 0, cursor := s.hdr.pixelOffset, arb := { s.arb with reqP0 := true }, fsm := .blitPix }

/-- R157, R158, R159, R160: one pixel step, with the advance or the walk end. Addition of 32-bit words wraps as
`wrap32` does. That PIX_COUNT wraps from 0xFFFFFFFF to 0, in states that no run reaches, is read from the spec by
inference (log 10). -/
def Obligations.PixelStepWritesOnePixel : Prop :=
  ∀ (s : State) (p : Word) (ev : SinkEvent), s.fsm = .blitPix → s.arb.owner = some .p0 →
    s.cursor.toNat + 3 ≤ s.config.img.len.toNat → p = s.pixCount + 1 →
    ev = .pix .p0 (if s.config.originXAdd then s.latOx + s.col else s.col) (s.row + s.latOy)
      (pack565 (imgByte s.config.img (s.cursor.toNat + 2)) (imgByte s.config.img (s.cursor.toNat + 1))
        (imgByte s.config.img s.cursor.toNat)) →
    step (placeTurn true .engine s) =
      if s.col.toInt + 1 < s.hdr.width.toInt then
        .next { s with hist := s.hist ++ [ev], cursor := s.cursor + 3, pixCount := p, col := s.col + 1 }
      else if s.row.toInt > 1 then
        .next { s with hist := s.hist ++ [ev], cursor := s.cursor + 3, pixCount := p, col := 0, row := s.row - 1 }
      else
        .next { s with hist := s.hist ++ [ev], cursor := s.cursor + 3, pixCount := p, col := 0, row := 0, arb := { s.arb with owner := none, reqP0 := false }, status := { s.status with busy := false, done := true, err := .none, cause := .none }, errInfo := 0, fsm := .idle }

/-- R162: a walk that owns a ready sink and is not interrupted writes exactly its closed form and ends as R160 says. -/
def Obligations.WalkWritesItsClosedForm : Prop :=
  ∀ (s : State) (n : Nat) (rest : List Turn), s.fsm = .blitPix → s.arb.owner = some .p0 →
    1 ≤ rasterW s → 1 ≤ rasterH s → rasterEnd s ≤ imgLen s.config.img →
    s.row = s.hdr.height → s.col = 0 → s.cursor = s.hdr.pixelOffset → s.pixCount = 0 → n = pixelTotal s →
    s.turns = List.replicate n { sinkReady := true, action := .engine } ++ rest →
    Host.Core.run Sys2Proof.core n s = .next { s with
      hist := s.hist ++ walkEvents s n, cursor := BitVec.ofNat 32 (s.hdr.pixelOffset.toNat + 3 * n)
      pixCount := BitVec.ofNat 32 n, row := 0, col := 0, arb := { s.arb with owner := none, reqP0 := false }
      status := { s.status with busy := false, done := true, err := .none, cause := .none }
      errInfo := 0, fsm := .idle, turns := rest }

/-- R151, R162, R282: DECODE_BLIT of a valid header whose raster fits, from the HOST's write to the finish, where only
the block's own agents take turns. -/
def Obligations.DecodeBlitRunsToItsEnd : Prop :=
  ∀ (s : State) (b : Nat → Nat) (h : Header) (n : Nat) (rest : List Turn),
    (∀ a, b a = (imgByte s.config.img a).toNat) → s.status.busy = false →
    s.arb = { owner := none, reqP0 := false, reqP1 := false } →
    34 ≤ s.config.img.len.toNat → b 0 = 0x42 → b 1 = 0x4D → b 26 = 1 → b 27 = 0 →
    b 30 = 0 → b 31 = 0 → b 32 = 0 → b 33 = 0 →
    (let le (k : Nat) : Word := BitVec.ofNat 32 (b k + 256 * b (k + 1) + 65536 * b (k + 2) + 16777216 * b (k + 3))
     h = { fileSize := le 2, pixelOffset := le 10, headerSize := le 14, width := le 18, height := le 22, planesBpp := BitVec.ofNat 32 (1 + 65536 * (b 28 + 256 * b 29)), compression := 0 }) →
    1 ≤ h.width.toInt → 1 ≤ h.height.toInt → (n : Int) = h.width.toInt * h.height.toInt →
    h.pixelOffset.toNat + 3 * n ≤ s.config.img.len.toNat →
    s.turns = [{ sinkReady := true, action := .host (.wr 0 3) }, { sinkReady := true, action := .engine },
        { sinkReady := true, action := .engine }, { sinkReady := true, action := .arb }] ++
      List.replicate n { sinkReady := true, action := .engine } ++ rest →
    Host.Core.run Sys2Proof.core (4 + n) s = .next { s with
      status := { busy := false, done := true, hdrValid := true, ovr := false, err := .none, cause := .none, lastOp := 3 }
      errInfo := 0, hdr := h, latOx := s.originX, latOy := s.originY, latCin := s.convIn, thenBlit := true
      hist := s.hist ++ walkEvents { s with hdr := h, latOx := s.originX, latOy := s.originY } n
      cursor := BitVec.ofNat 32 (h.pixelOffset.toNat + 3 * n), pixCount := BitVec.ofNat 32 n, row := 0, col := 0
      fsm := .idle, turns := rest }

/-- R203, R162: from the grant on, whatever turn comes next but a reset, a walk has written exactly its closed form up
to its next pixel, and when it ends it has written all of it. -/
def Obligations.GrantedWalkIsUnbrokenByAnyAgent : Prop :=
  ∀ (h0 : List SinkEvent) (s t : State), Inv s → GrantedWalk h0 s → (nextTurn s).action ≠ .reset →
    step s = .next t →
    GrantedWalk h0 t ∨
      (t.fsm = .idle ∧ t.arb.owner = none ∧ t.status.done = true ∧ t.status.err = .none ∧
        t.hist = h0 ++ walkEvents s (pixelTotal s) ∧ t.pixCount = BitVec.ofNat 32 (pixelTotal s))

/-- R257: during a walk PIX_COUNT and CURSOR only rise, whichever agent steps, but for reset. -/
def Obligations.WalkProgressRises : Prop :=
  ∀ s t : State, Inv s → s.fsm = .blitPix → (nextTurn s).action ≠ .reset → step s = .next t →
    (t.pixCount.toNat = s.pixCount.toNat ∧ t.cursor.toNat = s.cursor.toNat) ∨
      (t.pixCount.toNat = s.pixCount.toNat + 1 ∧ t.cursor.toNat = s.cursor.toNat + 3)

/-! ### The converter -/

/-- R182: the RGB565 word of three channels. -/
def Obligations.Pack565PacksTruncatedChannels : Prop :=
  ∀ red green blue : Byte,
    (pack565 red green blue).toNat = 2048 * (red.toNat / 8) + 32 * (green.toNat / 4) + blue.toNat / 8

/-- R185: the laws (a) to (e) of the conversion. -/
def Obligations.Pack565ObeysItsLaws : Prop :=
  (∀ r g b r' g' b' : Byte, pack565 r g b = pack565 r' g' b' ↔
    r.extractLsb' 3 5 = r'.extractLsb' 3 5 ∧ g.extractLsb' 2 6 = g'.extractLsb' 2 6 ∧
      b.extractLsb' 3 5 = b'.extractLsb' 3 5) ∧
  (∀ c : Half, ∃ r g b : Byte, pack565 r g b = c) ∧
  pack565 0 0 0 = 0x0000 ∧ pack565 0xFF 0xFF 0xFF = 0xFFFF ∧
  (∀ r g b r' g' b' : Byte, r ≤ r' → g ≤ g' → b ≤ b' → pack565 r g b ≤ pack565 r' g' b') ∧
  (∀ c : Half, Fintype.card { p : Byte × Byte × Byte // pack565 p.1 p.2.1 p.2.2 = c } = 256)

/-- R183: CONVERT from the HOST's write to its finish. That THEN_BLIT keeps its value is read from the spec by inference
(log 18). -/
def Obligations.ConvertCommandPacksConvIn : Prop :=
  ∀ (s : State) (r1 r2 : Bool), s.status.busy = false →
    Host.Core.run Sys2Proof.core 2 (placeTurn r1 (.host (.wr 0 4)) (placeTurn r2 .engine s)) = .next { s with
      convOut := BitVec.ofNat 16 (2048 * (s.convIn.toNat / 524288) + 32 * (s.convIn.toNat / 1024 % 64) + s.convIn.toNat / 8 % 32)
      status := { busy := false, done := true, hdrValid := s.status.hdrValid, ovr := false, err := .none, cause := .none, lastOp := 4 }
      errInfo := 0, latOx := s.originX, latOy := s.originY, latCin := s.convIn, fsm := .idle }

/-- R277, R228: the ENGINE's step neither reads nor writes ORIGIN_X, ORIGIN_Y or CONV_IN. -/
def Obligations.OperandWritesNeverReachARunningCommand : Prop :=
  ∀ (s : State) (ready : Bool) (ox oy : Word) (ci : BitVec 24),
    ∃ t, step (placeTurn ready .engine s) = .next t ∧
      t.originX = s.originX ∧ t.originY = s.originY ∧ t.convIn = s.convIn ∧
      step (placeTurn ready .engine { s with originX := ox, originY := oy, convIn := ci }) =
        .next { t with originX := ox, originY := oy, convIn := ci }

/-! ### The arbiter and the EXT client -/

/-- R198, R199: the grant step, and that it sets OWNER and nothing else. That an ARB turn without a step is used up with
no change is the model's choice (log 1). -/
def Obligations.GrantGivesTheFreeSink : Prop :=
  ∀ (s : State) (ready : Bool), step (placeTurn ready .arb s) =
    if s.arb.owner ≠ none ∨ (s.arb.reqP0 = false ∧ s.arb.reqP1 = false) then .next s
    else if s.arb.reqP1 = false ∨ (s.arb.reqP0 = true ∧ s.config.arbPriority = .p0First) then
      .next { s with arb := { s.arb with owner := some .p0 } }
    else .next { s with arb := { s.arb with owner := some .p1 } }

/-- R204, R205, R206, R202: the EXT client's three steps, and that it holds where they are not enabled. That an EXT turn
without a step is used up with no change is the model's choice (log 1). -/
def Obligations.ExtStepsFollowTheHandshake : Prop :=
  ∀ (s : State) (ready : Bool) (x y : Word) (c : Half) (name : RenderOp) (args : List Word),
    step (placeTurn ready .extRequest s) = .next { s with arb := { s.arb with reqP1 := true } } ∧
    step (placeTurn ready (.extOp (.setPixel x y c)) s) =
      .next (if s.arb.owner = some .p1 ∧ ready = true then { s with hist := s.hist ++ [.pix .p1 x y c] } else s) ∧
    step (placeTurn ready (.extOp (.other name args)) s) =
      .next (if s.arb.owner = some .p1 ∧ ready = true then { s with hist := s.hist ++ [.op name args] } else s) ∧
    step (placeTurn ready .extRelease s) =
      .next (if s.arb.owner = some .p1 then { s with arb := { s.arb with owner := none, reqP1 := false } } else s)

/-- R196: after every step of every agent an owner has its request set, and an event entered HIST only in a step of its
owner. At most one port owns the sink by the type of OWNER. -/
def Obligations.OwnerAlwaysHasItsRequest : Prop :=
  ∀ s t : State, (s.arb.owner = some .p0 → s.arb.reqP0 = true) → (s.arb.owner = some .p1 → s.arb.reqP1 = true) →
    step s = .next t →
    (t.arb.owner = some .p0 → t.arb.reqP0 = true) ∧ (t.arb.owner = some .p1 → t.arb.reqP1 = true) ∧
      (t.hist = s.hist ∨ ∃ e, t.hist = s.hist ++ [e] ∧ s.arb.owner = some (eventPort e))

/-- R202: an event enters HIST one at a time, from the port that owns the sink, with SINK_READY. -/
def Obligations.OnlyTheOwnerWritesTheSink : Prop :=
  ∀ s t : State, step s = .next t →
    t.hist = s.hist ∨ ∃ e, t.hist = s.hist ++ [e] ∧ s.arb.owner = some (eventPort e) ∧ (nextTurn s).sinkReady = true

/-- R201: a port that owns the sink keeps it until it gives it back itself or a reset is taken. -/
def Obligations.NoPortIsPreempted : Prop :=
  ∀ (s t : State) (p : Port), s.arb.owner = some p → step s = .next t →
    t.arb.owner = some p ∨
      (t.arb.owner = none ∧ ((nextTurn s).action = .reset ∨ (p = .p1 ∧ (nextTurn s).action = .extRelease) ∨
        (p = .p0 ∧ (nextTurn s).action = .engine ∧ s.fsm = .blitPix ∧ t.fsm = .idle)))

/-- R207, R36 to R50: the arbiter and the EXT client change nothing the HOST reads but STATUS. -/
def Obligations.ArbiterAndExtChangeOnlyStatus : Prop :=
  ∀ (s : State) (ready : Bool) (a : Action),
    (a = .arb ∨ a = .extRequest ∨ a = .extRelease ∨ ∃ call, a = .extOp call) →
    ∃ t, step (placeTurn ready a s) = .next t ∧ t = { s with arb := t.arb, hist := t.hist } ∧
      ∀ w : BitVec 6, w ≠ 1 → readWindow w t = readWindow w s

/-! ### Reset -/

/-- R270, R271, R273: reset in one step, from any state. That the model's own record of reads and turns is kept is the
model's choice (log 20). -/
def Obligations.ResetClearsAllBlockState : Prop :=
  ∀ (s : State) (ready : Bool), step (placeTurn ready .reset s) = .next
    { config := s.config
      status := { busy := false, done := false, hdrValid := false, ovr := false, err := .none, cause := .none, lastOp := 0 }
      arb := { owner := none, reqP0 := false, reqP1 := false }
      originX := 0, originY := 0, convIn := 0, convOut := 0
      hdr := { fileSize := 0, pixelOffset := 0, headerSize := 0, width := 0, height := 0, planesBpp := 0, compression := 0 }
      pixCount := 0, errInfo := 0, cursor := 0, fsm := .idle, thenBlit := false
      latOx := 0, latOy := 0, latCin := 0, row := 0, col := 0
      hist := s.hist, replies := s.replies, turns := s.turns, draws := s.draws, hostDone := s.hostDone }

/-- R271: after launch every register reads 0 but IMG_LEN_R, which reads IMG_LEN. -/
def Obligations.LaunchWindowReadsZero : Prop :=
  ∀ (c : Config) (w : BitVec 6), readWindow w (State.launch c) = if w = 15 then c.img.len else 0

/-- R274: a BLIT right after reset ends with NO_HEADER and writes nothing. -/
def Obligations.BlitAfterResetReportsNoHeader : Prop :=
  ∀ (s : State) (r1 r2 r3 : Bool), ∃ t,
    Host.Core.run Sys2Proof.core 3
      (placeTurn r1 .reset (placeTurn r2 (.host (.wr 0 2)) (placeTurn r3 .engine s))) = .next t ∧
    statusWord t = 0x00002032 ∧ t.errInfo = 0 ∧ t.hist = s.hist ∧ t.pixCount = 0

/-! ### Rules over every step of every agent -/

/-- The machine never stops: whatever the state and the turn, there is a next state. -/
def Obligations.EveryStepHasANextState : Prop := ∀ s : State, ∃ t, step s = .next t

/-- The invariant holds right after launch, and so after reset. -/
def Obligations.InvariantHoldsAtLaunch : Prop :=
  (∀ c : Config, c.wf = true → Inv (State.launch c)) ∧ Inv State.reset

/-- Every step of every agent keeps the invariant. -/
def Obligations.EveryStepKeepsTheInvariant : Prop :=
  ∀ s t : State, Inv s → step s = .next t → Inv t

/-- R59, R62: no step changes the image or the parameters. -/
def Obligations.LaunchParametersNeverChange : Prop :=
  ∀ (n : Nat) (s t : State), Host.Core.run Sys2Proof.core n s = .next t → t.config = s.config

/-- R57: no run, resets included, removes or changes an event in HIST. -/
def Obligations.SinkHistoryOnlyGrows : Prop :=
  ∀ (n : Nat) (s t : State), Host.Core.run Sys2Proof.core n s = .next t → s.hist <+: t.hist

/-- R25: a running command ends only by the ENGINE step that finishes it, or by reset. -/
def Obligations.BusyEndsOnlyByFinishOrReset : Prop :=
  ∀ s t : State, s.status.busy = true → step s = .next t → t.status.busy = false →
    (nextTurn s).action = .reset ∨
      ((nextTurn s).action = .engine ∧ s.fsm ≠ .idle ∧ t.fsm = .idle ∧ t.status.done = true)

/-- R28: OVR is sticky: only an accepted command, an illegal one or reset clears it. -/
def Obligations.OverrunFlagIsSticky : Prop :=
  ∀ s t : State, s.status.ovr = true → step s = .next t → t.status.ovr = false →
    (nextTurn s).action = .reset ∨
      (s.status.busy = false ∧ ∃ word : Word, word ≠ 0 ∧ (nextTurn s).action = .host (.wr 0 word))

/-- R27 and the writers of the HDR registers: acceptance of PARSE or DECODE_BLIT, a parse step, reset. -/
def Obligations.HeaderHasNoOtherWriter : Prop :=
  ∀ s t : State, step s = .next t → ¬ (t.hdr = s.hdr ∧ t.status.hdrValid = s.status.hdrValid) →
    (nextTurn s).action = .reset ∨ ((nextTurn s).action = .engine ∧ s.fsm = .parse) ∨
      (s.status.busy = false ∧ ((nextTurn s).action = .host (.wr 0 1) ∨ (nextTurn s).action = .host (.wr 0 3)))

/-- R39, R50, R47: the writers of CONV_OUT, CURSOR and PIX_COUNT. -/
def Obligations.ResultRegistersHaveNoOtherWriter : Prop :=
  ∀ s t : State, step s = .next t → (nextTurn s).action ≠ .reset →
    (t.convOut ≠ s.convOut → (nextTurn s).action = .engine ∧ s.fsm = .conv) ∧
    (t.cursor ≠ s.cursor → (nextTurn s).action = .engine ∧ (s.fsm = .blitCheck ∨ s.fsm = .blitPix)) ∧
    (t.pixCount ≠ s.pixCount → ((nextTurn s).action = .engine ∧ s.fsm = .blitPix) ∨
      (s.status.busy = false ∧ ((nextTurn s).action = .host (.wr 0 2) ∨ (nextTurn s).action = .host (.wr 0 3))))

/-- R247, R163: an ENGINE step that reports an error writes no pixel and leaves the progress registers, the arbiter and
the header as they were. -/
def Obligations.ErrorsLeaveNoTrace : Prop :=
  ∀ (s t : State) (ready : Bool), Inv s → s.fsm ≠ .idle → step (placeTurn ready .engine s) = .next t →
    t.status.err ≠ .none →
    t = { s with status := { s.status with busy := false, done := true, err := t.status.err, cause := t.status.cause }, errInfo := t.errInfo, fsm := .idle }
      ∧ s.fsm ≠ .blitPix

/-- R73, R233: where STATUS reads BUSY = 0 nothing but the HOST can keep the run from being ended; and an ended run
stays ended, with every word of the window but STATUS as it was, but for reset. That the HOST's having no further access
to make is its own word, and no access laid down, is the model's choice (log 21, log 1, log 2). -/
def Obligations.IdleStatusMeansTheRunEnded : Prop :=
  (∀ s : State, Inv s → (statusWord s).getLsbD 0 = false →
    s.fsm = .idle ∧ s.arb.reqP0 = false ∧ s.arb.owner ≠ some .p0 ∧ (runEnded s ↔ hostFinished s)) ∧
  ∀ s t : State, runEnded s → step s = .next t →
    runEnded t ∧ ((nextTurn s).action ≠ .reset → ∀ w : BitVec 6, w ≠ 1 → readWindow w t = readWindow w s)

/-- R101: the script line `CONV r, g, b` at one poll, in the one schedule with the CONVERT step between its command and
that poll. That the reads are recorded in `replies` (log 7) and that the expansion is given its number of polls (log 13)
are the model's choices. -/
def Obligations.ConvLineReturnsTheColour : Prop :=
  ∀ (s : State) (r g b : Byte) (k1 k2 k3 k4 k5 : Bool) (a1 a2 a3 a4 : HostAccess), s.status.busy = false →
    expandLine 1 (.conv (r.setWidth 32) (g.setWidth 32) (b.setWidth 32)) = some [a1, a2, a3, a4] →
    ∃ t v, Host.Core.run Sys2Proof.core 5
      (placeTurn k1 (.host a1) (placeTurn k2 (.host a2) (placeTurn k3 .engine (placeTurn k4 (.host a3)
        (placeTurn k5 (.host a4) s))))) = .next t ∧
      t.replies = s.replies ++ [{ w := 1, value := v }, { w := 5, value := (pack565 r g b).setWidth 32 }] ∧
      waitEnds [v] = true

/-! ### The image's form -/

/-- The image built from a list of bytes has those bytes (the model's form of IMG, log 5). -/
def Obligations.ImageHoldsItsBytes : Prop :=
  ∀ bs : List Byte, bs.length < 2 ^ 32 →
    (imageOf bs).len.toNat = bs.length ∧ ∀ a, imgByte (imageOf bs) a = bs.getD a 0

/-- Two canonical images of one length with the same bytes are the same data (the model's form of IMG, log 5). -/
def Obligations.CanonicalImagesAreEqualData : Prop :=
  ∀ m m' : Memory, m.wf = true → m'.wf = true → m.len = m'.len → (∀ a, imgByte m a = imgByte m' a) → m = m'
end

