-- ==== Sys2Proof/Laws/Memory.lean ====
section
/-! SUPPORT. The image: its canonical form, its reads, and what the header's reads can answer. -/

namespace Sys2Proof.Machine

/-! ### The canonical form -/

theorem cellsWf_weaken {len lo lo' : Nat} (h : lo' ≤ lo) {cs : List Host.Cell} (hw : cellsWf len lo cs = true) :
    cellsWf len lo' cs = true := by
  cases cs with
  | nil => rfl
  | cons c rest =>
    simp only [cellsWf, Bool.and_eq_true, decide_eq_true_eq] at hw ⊢
    exact ⟨⟨⟨by omega, hw.1.1.2⟩, hw.1.2⟩, hw.2⟩

theorem cellsFrom_wf (bs : List Byte) (a len : Nat) (h : a + bs.length ≤ len) :
    cellsWf len a (cellsFrom a bs) = true := by
  induction bs generalizing a with
  | nil => rfl
  | cons b bs ih =>
    simp only [List.length_cons] at h
    have hr := ih (a + 1) (by omega)
    by_cases hb : b = 0
    · simpa [cellsFrom, hb] using cellsWf_weaken (by omega) hr
    · simp only [cellsFrom, if_neg hb, cellsWf, Bool.and_eq_true, decide_eq_true_eq, bne_iff_ne, ne_eq]
      exact ⟨⟨⟨by omega, by omega⟩, hb⟩, hr⟩

/-- Building an image keeps the canonical form. It is the one operation that makes an image; no operation writes to
one. -/
theorem imageOf_wf (bs : List Byte) (h : bs.length < 2 ^ 32) : (imageOf bs).wf = true := by
  have hl : (imageOf bs).len.toNat = bs.length := by simpa [imageOf] using h
  exact cellsFrom_wf bs 0 _ (by rw [hl]; omega)

theorem default_wf : Config.default.wf = true := rfl

/-! ### Reads -/

theorem imgRead_ok {m : Memory} {a n : Nat} (h : a + n ≤ imgLen m) :
    imgRead m a n = .ok ((List.range' a n).map (imgByte m)) := by
  simp [imgRead, Nat.not_lt.2 h]

theorem imgRead_overrun {m : Memory} {a n : Nat} (h : imgLen m < a + n) : imgRead m a n = .error (a + n) := by
  simp [imgRead, h]

theorem readBytes_ok {m : Memory} {a n : Nat} (h : a + n ≤ imgLen m) :
    readBytes m a n = .ok ((List.range' a n).map (imgByte m)) := by
  simp [readBytes, imgRead_ok h]

theorem readBytes_overrun {m : Memory} {a n : Nat} (h : imgLen m < a + n) :
    readBytes m a n = .error (overrun (a + n)) := by
  simp [readBytes, imgRead_overrun h]

theorem read16_ok {m : Memory} {n : Nat} (h : n + 2 ≤ imgLen m) :
    read16 m n = .ok (le16 (imgByte m n) (imgByte m (n + 1))) := by
  simp [read16, readBytes_ok h, List.range']

theorem read16_overrun {m : Memory} {n : Nat} (h : imgLen m < n + 2) : read16 m n = .error (overrun (n + 2)) := by
  simp [read16, readBytes_overrun h]

theorem read32_ok {m : Memory} {n : Nat} (h : n + 4 ≤ imgLen m) :
    read32 m n = .ok (le32 (imgByte m n) (imgByte m (n + 1)) (imgByte m (n + 2)) (imgByte m (n + 3))) := by
  simp [read32, readBytes_ok h, List.range']

theorem read32_overrun {m : Memory} {n : Nat} (h : imgLen m < n + 4) : read32 m n = .error (overrun (n + 4)) := by
  simp [read32, readBytes_overrun h]

theorem satWord_small {k : Nat} (h : k < 2 ^ 32) : satWord k = BitVec.ofNat 32 k := by
  rw [satWord, Nat.min_eq_left (by omega)]

/-- A little-endian pair as a number. -/
theorem le16_toNat (b0 b1 : Byte) : (le16 b0 b1).toNat = b0.toNat + 256 * b1.toNat := by
  have h0 := b0.isLt
  have h1 := b1.isLt
  have : (le16 b0 b1).toNat = b1.toNat <<< 8 ||| b0.toNat := by
    simp only [le16, BitVec.toNat_or, BitVec.toNat_shiftLeft, BitVec.toNat_setWidth, Nat.shiftLeft_eq]
    rw [Nat.mod_eq_of_lt (by omega : b0.toNat < 2 ^ 16), Nat.mod_eq_of_lt (by omega : b1.toNat < 2 ^ 16),
      Nat.mod_eq_of_lt (by omega), Nat.lor_comm]
  rw [this, ← Nat.shiftLeft_add_eq_or_of_lt h0, Nat.shiftLeft_eq]
  omega

/-- Four little-endian bytes as a number. -/
theorem le32_toNat (b0 b1 b2 b3 : Byte) :
    (le32 b0 b1 b2 b3).toNat = b0.toNat + 256 * b1.toNat + 65536 * b2.toNat + 16777216 * b3.toNat := by
  have h0 := b0.isLt
  have h1 := b1.isLt
  have h2 := b2.isLt
  have h3 := b3.isLt
  have hl := le16_toNat b0 b1
  have hh := le16_toNat b2 b3
  have : (le32 b0 b1 b2 b3).toNat = (le16 b2 b3).toNat <<< 16 ||| (le16 b0 b1).toNat := by
    simp only [le32, BitVec.toNat_or, BitVec.toNat_shiftLeft, BitVec.toNat_setWidth, Nat.shiftLeft_eq]
    rw [Nat.mod_eq_of_lt (by omega : (le16 b0 b1).toNat < 2 ^ 32),
      Nat.mod_eq_of_lt (by omega : (le16 b2 b3).toNat < 2 ^ 32), Nat.mod_eq_of_lt (by omega), Nat.lor_comm]
  rw [this, ← Nat.shiftLeft_add_eq_or_of_lt (by omega : (le16 b0 b1).toNat < 2 ^ 16), Nat.shiftLeft_eq]
  omega

/-! ### The header's reads -/

/-- The header that a complete one gives (R81, R132). -/
def headerOf (m : Memory) : Header :=
  let b := imgByte m
  { fileSize := le32 (b 2) (b 3) (b 4) (b 5), pixelOffset := le32 (b 10) (b 11) (b 12) (b 13),
    headerSize := le32 (b 14) (b 15) (b 16) (b 17), width := le32 (b 18) (b 19) (b 20) (b 21),
    height := le32 (b 22) (b 23) (b 24) (b 25), planesBpp := le16 (b 28) (b 29) ++ le16 (b 26) (b 27),
    compression := le32 (b 30) (b 31) (b 32) (b 33) }

theorem read16_bind {α : Type} (m : Memory) (n : Nat) (f : Half → Except Raise α) :
    (read16 m n >>= f) =
      if imgLen m < n + 2 then .error (overrun (n + 2)) else f (le16 (imgByte m n) (imgByte m (n + 1))) := by
  split
  · rw [read16_overrun (by omega)]; rfl
  · rw [read16_ok (by omega)]; rfl

theorem read32_bind {α : Type} (m : Memory) (n : Nat) (f : Word → Except Raise α) :
    (read32 m n >>= f) =
      if imgLen m < n + 4 then .error (overrun (n + 4))
      else f (le32 (imgByte m n) (imgByte m (n + 1)) (imgByte m (n + 2)) (imgByte m (n + 3))) := by
  split
  · rw [read32_overrun (by omega)]; rfl
  · rw [read32_ok (by omega)]; rfl

theorem check_bind {α : Type} (ok : Bool) (r : Raise) (f : Unit → Except Raise α) :
    (check ok r >>= f) = if ok = false then .error r else f () := by
  cases ok <;> rfl

/-- The parse as one chain of tests, in byte order (R132, R137). -/
theorem parseHeader_eq (m : Memory) : parseHeader m =
    if imgLen m < 2 then .error (overrun 2)
    else if (le16 (imgByte m 0) (imgByte m 1) == 0x4D42) = false then .error (invalidFormat .magic 0)
    else if imgLen m < 6 then .error (overrun 6)
    else if imgLen m < 14 then .error (overrun 14)
    else if imgLen m < 18 then .error (overrun 18)
    else if imgLen m < 22 then .error (overrun 22)
    else if imgLen m < 26 then .error (overrun 26)
    else if imgLen m < 28 then .error (overrun 28)
    else if (le16 (imgByte m 26) (imgByte m 27) == 1) = false then .error (invalidFormat .planes 26)
    else if imgLen m < 30 then .error (overrun 30)
    else if imgLen m < 34 then .error (overrun 34)
    else if (le32 (imgByte m 30) (imgByte m 31) (imgByte m 32) (imgByte m 33) == 0) = false then
      .error (invalidFormat .compression 30)
    else .ok (headerOf m) := by
  unfold parseHeader
  rw [read16_bind]; refine if_congr Iff.rfl rfl ?_
  rw [check_bind]; refine if_congr Iff.rfl rfl ?_
  rw [read32_bind]; refine if_congr Iff.rfl rfl ?_
  rw [read32_bind]; refine if_congr Iff.rfl rfl ?_
  rw [read32_bind]; refine if_congr Iff.rfl rfl ?_
  rw [read32_bind]; refine if_congr Iff.rfl rfl ?_
  rw [read32_bind]; refine if_congr Iff.rfl rfl ?_
  rw [read16_bind]; refine if_congr Iff.rfl rfl ?_
  rw [check_bind]; refine if_congr Iff.rfl rfl ?_
  rw [read16_bind]; refine if_congr Iff.rfl rfl ?_
  rw [read32_bind]; refine if_congr Iff.rfl rfl ?_
  rw [check_bind]; exact if_congr Iff.rfl rfl rfl

theorem ite_error_eq_ok {α : Type} {c : Prop} [Decidable c] {r : Raise} {x : Except Raise α} {v : α}
    (h : (if c then .error r else x) = .ok v) : ¬ c ∧ x = .ok v := by
  by_cases hc : c
  · rw [if_pos hc] at h; exact nomatch h
  · rw [if_neg hc] at h; exact ⟨hc, h⟩

theorem ite_error_eq_error {α : Type} {c : Prop} [Decidable c] {r r' : Raise} {x : Except Raise α}
    (h : (if c then .error r else x) = .error r') : (c ∧ r' = r) ∨ (¬ c ∧ x = .error r') := by
  by_cases hc : c
  · rw [if_pos hc] at h; cases h; exact .inl ⟨hc, rfl⟩
  · rw [if_neg hc] at h; exact .inr ⟨hc, h⟩

/-- What a successful parse says of the image and of the header. -/
theorem parseHeader_ok {m : Memory} {h : Header} (hp : parseHeader m = .ok h) :
    34 ≤ imgLen m ∧ h = headerOf m ∧ h.planesBpp.extractLsb' 0 16 = 1 ∧ h.compression = 0 := by
  rw [parseHeader_eq] at hp
  obtain ⟨-, hp⟩ := ite_error_eq_ok hp
  obtain ⟨-, hp⟩ := ite_error_eq_ok hp
  obtain ⟨-, hp⟩ := ite_error_eq_ok hp
  obtain ⟨-, hp⟩ := ite_error_eq_ok hp
  obtain ⟨-, hp⟩ := ite_error_eq_ok hp
  obtain ⟨-, hp⟩ := ite_error_eq_ok hp
  obtain ⟨-, hp⟩ := ite_error_eq_ok hp
  obtain ⟨-, hp⟩ := ite_error_eq_ok hp
  obtain ⟨h1, hp⟩ := ite_error_eq_ok hp
  obtain ⟨-, hp⟩ := ite_error_eq_ok hp
  obtain ⟨hl, hp⟩ := ite_error_eq_ok hp
  obtain ⟨h2, hp⟩ := ite_error_eq_ok hp
  rw [Bool.not_eq_false, beq_iff_eq] at h1 h2
  cases hp
  refine ⟨by omega, rfl, ?_, h2⟩
  have hpl : (headerOf m).planesBpp = le16 (imgByte m 28) (imgByte m 29) ++ (1 : Half) := by rw [← h1]; rfl
  rw [hpl]
  apply BitVec.eq_of_getLsbD_eq
  intro i hi
  rw [BitVec.getLsbD_extractLsb', BitVec.getLsbD_append]
  simp only [hi, decide_true, Bool.true_and, Nat.zero_add, if_true]

/-- What a failing parse can raise. -/
theorem parseHeader_error {m : Memory} {r : Raise} (hp : parseHeader m = .error r) :
    r = invalidFormat .magic 0 ∨ r = invalidFormat .planes 26 ∨ r = invalidFormat .compression 30 ∨
      ∃ k, imgLen m < k ∧ k ≤ 34 ∧ r = overrun k := by
  have past : ∀ k, k ≤ 34 → imgLen m < k ∧ r = overrun k → ∃ k, imgLen m < k ∧ k ≤ 34 ∧ r = overrun k :=
    fun k hk h => ⟨k, h.1, hk, h.2⟩
  rw [parseHeader_eq] at hp
  rcases ite_error_eq_error hp with h | ⟨-, hp⟩
  · exact .inr (.inr (.inr (past _ (by decide) h)))
  rcases ite_error_eq_error hp with h | ⟨-, hp⟩
  · exact .inl h.2
  rcases ite_error_eq_error hp with h | ⟨-, hp⟩
  · exact .inr (.inr (.inr (past _ (by decide) h)))
  rcases ite_error_eq_error hp with h | ⟨-, hp⟩
  · exact .inr (.inr (.inr (past _ (by decide) h)))
  rcases ite_error_eq_error hp with h | ⟨-, hp⟩
  · exact .inr (.inr (.inr (past _ (by decide) h)))
  rcases ite_error_eq_error hp with h | ⟨-, hp⟩
  · exact .inr (.inr (.inr (past _ (by decide) h)))
  rcases ite_error_eq_error hp with h | ⟨-, hp⟩
  · exact .inr (.inr (.inr (past _ (by decide) h)))
  rcases ite_error_eq_error hp with h | ⟨-, hp⟩
  · exact .inr (.inr (.inr (past _ (by decide) h)))
  rcases ite_error_eq_error hp with h | ⟨-, hp⟩
  · exact .inr (.inl h.2)
  rcases ite_error_eq_error hp with h | ⟨-, hp⟩
  · exact .inr (.inr (.inr (past _ (by decide) h)))
  rcases ite_error_eq_error hp with h | ⟨-, hp⟩
  · exact .inr (.inr (.inr (past _ (by decide) h)))
  rcases ite_error_eq_error hp with h | ⟨-, hp⟩
  · exact .inr (.inr (.inl h.2))
  · exact nomatch hp

end Sys2Proof.Machine
end

