-- ==== Sys2Proof/Laws/State.lean ====
section
/-! SUPPORT. What each update of the state leaves in each field: one lemma per field per update, true by rfl. -/

namespace Sys2Proof.Machine

variable (s : State) (f : Status) (op : BitVec 4) (w i : Word) (e : ErrCode) (c : Cause) (r : Raise) (ready : Bool)
  (a : Action) (ev : SinkEvent)

/-! ### STATUS bits 15:0 -/

@[simp] theorem statusAccepted_busy : (statusAccepted op f).busy = true := rfl
@[simp] theorem statusAccepted_done : (statusAccepted op f).done = false := rfl
@[simp] theorem statusAccepted_hdrValid : (statusAccepted op f).hdrValid = f.hdrValid := rfl
@[simp] theorem statusAccepted_ovr : (statusAccepted op f).ovr = false := rfl
@[simp] theorem statusAccepted_err : (statusAccepted op f).err = .none := rfl
@[simp] theorem statusAccepted_cause : (statusAccepted op f).cause = .none := rfl
@[simp] theorem statusAccepted_lastOp : (statusAccepted op f).lastOp = op := rfl

@[simp] theorem statusFinished_busy : (statusFinished e c f).busy = false := rfl
@[simp] theorem statusFinished_done : (statusFinished e c f).done = true := rfl
@[simp] theorem statusFinished_hdrValid : (statusFinished e c f).hdrValid = f.hdrValid := rfl
@[simp] theorem statusFinished_ovr : (statusFinished e c f).ovr = f.ovr := rfl
@[simp] theorem statusFinished_err : (statusFinished e c f).err = e := rfl
@[simp] theorem statusFinished_cause : (statusFinished e c f).cause = c := rfl
@[simp] theorem statusFinished_lastOp : (statusFinished e c f).lastOp = f.lastOp := rfl

@[simp] theorem statusIllegal_busy : (statusIllegal op f).busy = f.busy := rfl
@[simp] theorem statusIllegal_done : (statusIllegal op f).done = true := rfl
@[simp] theorem statusIllegal_hdrValid : (statusIllegal op f).hdrValid = f.hdrValid := rfl
@[simp] theorem statusIllegal_ovr : (statusIllegal op f).ovr = false := rfl
@[simp] theorem statusIllegal_err : (statusIllegal op f).err = .illegalCmd := rfl
@[simp] theorem statusIllegal_cause : (statusIllegal op f).cause = .none := rfl
@[simp] theorem statusIllegal_lastOp : (statusIllegal op f).lastOp = op := rfl

@[simp] theorem statusDropped_busy : (statusDropped f).busy = f.busy := rfl
@[simp] theorem statusDropped_done : (statusDropped f).done = f.done := rfl
@[simp] theorem statusDropped_hdrValid : (statusDropped f).hdrValid = f.hdrValid := rfl
@[simp] theorem statusDropped_ovr : (statusDropped f).ovr = true := rfl
@[simp] theorem statusDropped_err : (statusDropped f).err = f.err := rfl
@[simp] theorem statusDropped_cause : (statusDropped f).cause = f.cause := rfl
@[simp] theorem statusDropped_lastOp : (statusDropped f).lastOp = f.lastOp := rfl

/-! ### The shared operations -/

@[simp] theorem latch_config : (latch s).config = s.config := rfl
@[simp] theorem latch_status : (latch s).status = s.status := rfl
@[simp] theorem latch_arb : (latch s).arb = s.arb := rfl
@[simp] theorem latch_originX : (latch s).originX = s.originX := rfl
@[simp] theorem latch_originY : (latch s).originY = s.originY := rfl
@[simp] theorem latch_convIn : (latch s).convIn = s.convIn := rfl
@[simp] theorem latch_convOut : (latch s).convOut = s.convOut := rfl
@[simp] theorem latch_hdr : (latch s).hdr = s.hdr := rfl
@[simp] theorem latch_pixCount : (latch s).pixCount = s.pixCount := rfl
@[simp] theorem latch_errInfo : (latch s).errInfo = s.errInfo := rfl
@[simp] theorem latch_cursor : (latch s).cursor = s.cursor := rfl
@[simp] theorem latch_fsm : (latch s).fsm = s.fsm := rfl
@[simp] theorem latch_thenBlit : (latch s).thenBlit = s.thenBlit := rfl
@[simp] theorem latch_latOx : (latch s).latOx = s.originX := rfl
@[simp] theorem latch_latOy : (latch s).latOy = s.originY := rfl
@[simp] theorem latch_latCin : (latch s).latCin = s.convIn := rfl
@[simp] theorem latch_row : (latch s).row = s.row := rfl
@[simp] theorem latch_col : (latch s).col = s.col := rfl
@[simp] theorem latch_hist : (latch s).hist = s.hist := rfl
@[simp] theorem latch_replies : (latch s).replies = s.replies := rfl
@[simp] theorem latch_turns : (latch s).turns = s.turns := rfl
@[simp] theorem latch_draws : (latch s).draws = s.draws := rfl
@[simp] theorem latch_hostDone : (latch s).hostDone = s.hostDone := rfl

@[simp] theorem accept_config : (accept op s).config = s.config := rfl
@[simp] theorem accept_status : (accept op s).status = statusAccepted op s.status := rfl
@[simp] theorem accept_arb : (accept op s).arb = s.arb := rfl
@[simp] theorem accept_originX : (accept op s).originX = s.originX := rfl
@[simp] theorem accept_originY : (accept op s).originY = s.originY := rfl
@[simp] theorem accept_convIn : (accept op s).convIn = s.convIn := rfl
@[simp] theorem accept_convOut : (accept op s).convOut = s.convOut := rfl
@[simp] theorem accept_hdr : (accept op s).hdr = s.hdr := rfl
@[simp] theorem accept_pixCount : (accept op s).pixCount = s.pixCount := rfl
@[simp] theorem accept_errInfo : (accept op s).errInfo = 0 := rfl
@[simp] theorem accept_cursor : (accept op s).cursor = s.cursor := rfl
@[simp] theorem accept_fsm : (accept op s).fsm = s.fsm := rfl
@[simp] theorem accept_thenBlit : (accept op s).thenBlit = s.thenBlit := rfl
@[simp] theorem accept_latOx : (accept op s).latOx = s.originX := rfl
@[simp] theorem accept_latOy : (accept op s).latOy = s.originY := rfl
@[simp] theorem accept_latCin : (accept op s).latCin = s.convIn := rfl
@[simp] theorem accept_row : (accept op s).row = s.row := rfl
@[simp] theorem accept_col : (accept op s).col = s.col := rfl
@[simp] theorem accept_hist : (accept op s).hist = s.hist := rfl
@[simp] theorem accept_replies : (accept op s).replies = s.replies := rfl
@[simp] theorem accept_turns : (accept op s).turns = s.turns := rfl
@[simp] theorem accept_draws : (accept op s).draws = s.draws := rfl
@[simp] theorem accept_hostDone : (accept op s).hostDone = s.hostDone := rfl

@[simp] theorem drop_config : (drop s).config = s.config := rfl
@[simp] theorem drop_status : (drop s).status = statusDropped s.status := rfl
@[simp] theorem drop_arb : (drop s).arb = s.arb := rfl
@[simp] theorem drop_originX : (drop s).originX = s.originX := rfl
@[simp] theorem drop_originY : (drop s).originY = s.originY := rfl
@[simp] theorem drop_convIn : (drop s).convIn = s.convIn := rfl
@[simp] theorem drop_convOut : (drop s).convOut = s.convOut := rfl
@[simp] theorem drop_hdr : (drop s).hdr = s.hdr := rfl
@[simp] theorem drop_pixCount : (drop s).pixCount = s.pixCount := rfl
@[simp] theorem drop_errInfo : (drop s).errInfo = s.errInfo := rfl
@[simp] theorem drop_cursor : (drop s).cursor = s.cursor := rfl
@[simp] theorem drop_fsm : (drop s).fsm = s.fsm := rfl
@[simp] theorem drop_thenBlit : (drop s).thenBlit = s.thenBlit := rfl
@[simp] theorem drop_latOx : (drop s).latOx = s.latOx := rfl
@[simp] theorem drop_latOy : (drop s).latOy = s.latOy := rfl
@[simp] theorem drop_latCin : (drop s).latCin = s.latCin := rfl
@[simp] theorem drop_row : (drop s).row = s.row := rfl
@[simp] theorem drop_col : (drop s).col = s.col := rfl
@[simp] theorem drop_hist : (drop s).hist = s.hist := rfl
@[simp] theorem drop_replies : (drop s).replies = s.replies := rfl
@[simp] theorem drop_turns : (drop s).turns = s.turns := rfl
@[simp] theorem drop_draws : (drop s).draws = s.draws := rfl
@[simp] theorem drop_hostDone : (drop s).hostDone = s.hostDone := rfl

@[simp] theorem refuseIllegal_config : (refuseIllegal w s).config = s.config := rfl
@[simp] theorem refuseIllegal_status : (refuseIllegal w s).status = statusIllegal (cmdOp w) s.status := rfl
@[simp] theorem refuseIllegal_arb : (refuseIllegal w s).arb = s.arb := rfl
@[simp] theorem refuseIllegal_originX : (refuseIllegal w s).originX = s.originX := rfl
@[simp] theorem refuseIllegal_originY : (refuseIllegal w s).originY = s.originY := rfl
@[simp] theorem refuseIllegal_convIn : (refuseIllegal w s).convIn = s.convIn := rfl
@[simp] theorem refuseIllegal_convOut : (refuseIllegal w s).convOut = s.convOut := rfl
@[simp] theorem refuseIllegal_hdr : (refuseIllegal w s).hdr = s.hdr := rfl
@[simp] theorem refuseIllegal_pixCount : (refuseIllegal w s).pixCount = s.pixCount := rfl
@[simp] theorem refuseIllegal_errInfo : (refuseIllegal w s).errInfo = w := rfl
@[simp] theorem refuseIllegal_cursor : (refuseIllegal w s).cursor = s.cursor := rfl
@[simp] theorem refuseIllegal_fsm : (refuseIllegal w s).fsm = s.fsm := rfl
@[simp] theorem refuseIllegal_thenBlit : (refuseIllegal w s).thenBlit = s.thenBlit := rfl
@[simp] theorem refuseIllegal_latOx : (refuseIllegal w s).latOx = s.latOx := rfl
@[simp] theorem refuseIllegal_latOy : (refuseIllegal w s).latOy = s.latOy := rfl
@[simp] theorem refuseIllegal_latCin : (refuseIllegal w s).latCin = s.latCin := rfl
@[simp] theorem refuseIllegal_row : (refuseIllegal w s).row = s.row := rfl
@[simp] theorem refuseIllegal_col : (refuseIllegal w s).col = s.col := rfl
@[simp] theorem refuseIllegal_hist : (refuseIllegal w s).hist = s.hist := rfl
@[simp] theorem refuseIllegal_replies : (refuseIllegal w s).replies = s.replies := rfl
@[simp] theorem refuseIllegal_turns : (refuseIllegal w s).turns = s.turns := rfl
@[simp] theorem refuseIllegal_draws : (refuseIllegal w s).draws = s.draws := rfl
@[simp] theorem refuseIllegal_hostDone : (refuseIllegal w s).hostDone = s.hostDone := rfl

@[simp] theorem finish_config : (finish e c i s).config = s.config := rfl
@[simp] theorem finish_status : (finish e c i s).status = statusFinished e c s.status := rfl
@[simp] theorem finish_arb : (finish e c i s).arb = s.arb := rfl
@[simp] theorem finish_originX : (finish e c i s).originX = s.originX := rfl
@[simp] theorem finish_originY : (finish e c i s).originY = s.originY := rfl
@[simp] theorem finish_convIn : (finish e c i s).convIn = s.convIn := rfl
@[simp] theorem finish_convOut : (finish e c i s).convOut = s.convOut := rfl
@[simp] theorem finish_hdr : (finish e c i s).hdr = s.hdr := rfl
@[simp] theorem finish_pixCount : (finish e c i s).pixCount = s.pixCount := rfl
@[simp] theorem finish_errInfo : (finish e c i s).errInfo = i := rfl
@[simp] theorem finish_cursor : (finish e c i s).cursor = s.cursor := rfl
@[simp] theorem finish_fsm : (finish e c i s).fsm = .idle := rfl
@[simp] theorem finish_thenBlit : (finish e c i s).thenBlit = s.thenBlit := rfl
@[simp] theorem finish_latOx : (finish e c i s).latOx = s.latOx := rfl
@[simp] theorem finish_latOy : (finish e c i s).latOy = s.latOy := rfl
@[simp] theorem finish_latCin : (finish e c i s).latCin = s.latCin := rfl
@[simp] theorem finish_row : (finish e c i s).row = s.row := rfl
@[simp] theorem finish_col : (finish e c i s).col = s.col := rfl
@[simp] theorem finish_hist : (finish e c i s).hist = s.hist := rfl
@[simp] theorem finish_replies : (finish e c i s).replies = s.replies := rfl
@[simp] theorem finish_turns : (finish e c i s).turns = s.turns := rfl
@[simp] theorem finish_draws : (finish e c i s).draws = s.draws := rfl
@[simp] theorem finish_hostDone : (finish e c i s).hostDone = s.hostDone := rfl

@[simp] theorem raise_config : (raise r s).config = s.config := rfl
@[simp] theorem raise_status : (raise r s).status = statusFinished r.err r.cause s.status := rfl
@[simp] theorem raise_arb : (raise r s).arb = s.arb := rfl
@[simp] theorem raise_originX : (raise r s).originX = s.originX := rfl
@[simp] theorem raise_originY : (raise r s).originY = s.originY := rfl
@[simp] theorem raise_convIn : (raise r s).convIn = s.convIn := rfl
@[simp] theorem raise_convOut : (raise r s).convOut = s.convOut := rfl
@[simp] theorem raise_hdr : (raise r s).hdr = s.hdr := rfl
@[simp] theorem raise_pixCount : (raise r s).pixCount = s.pixCount := rfl
@[simp] theorem raise_errInfo : (raise r s).errInfo = r.info := rfl
@[simp] theorem raise_cursor : (raise r s).cursor = s.cursor := rfl
@[simp] theorem raise_fsm : (raise r s).fsm = .idle := rfl
@[simp] theorem raise_thenBlit : (raise r s).thenBlit = s.thenBlit := rfl
@[simp] theorem raise_latOx : (raise r s).latOx = s.latOx := rfl
@[simp] theorem raise_latOy : (raise r s).latOy = s.latOy := rfl
@[simp] theorem raise_latCin : (raise r s).latCin = s.latCin := rfl
@[simp] theorem raise_row : (raise r s).row = s.row := rfl
@[simp] theorem raise_col : (raise r s).col = s.col := rfl
@[simp] theorem raise_hist : (raise r s).hist = s.hist := rfl
@[simp] theorem raise_replies : (raise r s).replies = s.replies := rfl
@[simp] theorem raise_turns : (raise r s).turns = s.turns := rfl
@[simp] theorem raise_draws : (raise r s).draws = s.draws := rfl
@[simp] theorem raise_hostDone : (raise r s).hostDone = s.hostDone := rfl

@[simp] theorem clearHeader_config : (clearHeader s).config = s.config := rfl
@[simp] theorem clearHeader_status : (clearHeader s).status = { s.status with hdrValid := false } := rfl
@[simp] theorem clearHeader_arb : (clearHeader s).arb = s.arb := rfl
@[simp] theorem clearHeader_originX : (clearHeader s).originX = s.originX := rfl
@[simp] theorem clearHeader_originY : (clearHeader s).originY = s.originY := rfl
@[simp] theorem clearHeader_convIn : (clearHeader s).convIn = s.convIn := rfl
@[simp] theorem clearHeader_convOut : (clearHeader s).convOut = s.convOut := rfl
@[simp] theorem clearHeader_hdr : (clearHeader s).hdr = .zero := rfl
@[simp] theorem clearHeader_pixCount : (clearHeader s).pixCount = s.pixCount := rfl
@[simp] theorem clearHeader_errInfo : (clearHeader s).errInfo = s.errInfo := rfl
@[simp] theorem clearHeader_cursor : (clearHeader s).cursor = s.cursor := rfl
@[simp] theorem clearHeader_fsm : (clearHeader s).fsm = s.fsm := rfl
@[simp] theorem clearHeader_thenBlit : (clearHeader s).thenBlit = s.thenBlit := rfl
@[simp] theorem clearHeader_latOx : (clearHeader s).latOx = s.latOx := rfl
@[simp] theorem clearHeader_latOy : (clearHeader s).latOy = s.latOy := rfl
@[simp] theorem clearHeader_latCin : (clearHeader s).latCin = s.latCin := rfl
@[simp] theorem clearHeader_row : (clearHeader s).row = s.row := rfl
@[simp] theorem clearHeader_col : (clearHeader s).col = s.col := rfl
@[simp] theorem clearHeader_hist : (clearHeader s).hist = s.hist := rfl
@[simp] theorem clearHeader_replies : (clearHeader s).replies = s.replies := rfl
@[simp] theorem clearHeader_turns : (clearHeader s).turns = s.turns := rfl
@[simp] theorem clearHeader_draws : (clearHeader s).draws = s.draws := rfl
@[simp] theorem clearHeader_hostDone : (clearHeader s).hostDone = s.hostDone := rfl

@[simp] theorem sinkAppend_config : (sinkAppend ev s).config = s.config := rfl
@[simp] theorem sinkAppend_status : (sinkAppend ev s).status = s.status := rfl
@[simp] theorem sinkAppend_arb : (sinkAppend ev s).arb = s.arb := rfl
@[simp] theorem sinkAppend_originX : (sinkAppend ev s).originX = s.originX := rfl
@[simp] theorem sinkAppend_originY : (sinkAppend ev s).originY = s.originY := rfl
@[simp] theorem sinkAppend_convIn : (sinkAppend ev s).convIn = s.convIn := rfl
@[simp] theorem sinkAppend_convOut : (sinkAppend ev s).convOut = s.convOut := rfl
@[simp] theorem sinkAppend_hdr : (sinkAppend ev s).hdr = s.hdr := rfl
@[simp] theorem sinkAppend_pixCount : (sinkAppend ev s).pixCount = s.pixCount := rfl
@[simp] theorem sinkAppend_errInfo : (sinkAppend ev s).errInfo = s.errInfo := rfl
@[simp] theorem sinkAppend_cursor : (sinkAppend ev s).cursor = s.cursor := rfl
@[simp] theorem sinkAppend_fsm : (sinkAppend ev s).fsm = s.fsm := rfl
@[simp] theorem sinkAppend_thenBlit : (sinkAppend ev s).thenBlit = s.thenBlit := rfl
@[simp] theorem sinkAppend_latOx : (sinkAppend ev s).latOx = s.latOx := rfl
@[simp] theorem sinkAppend_latOy : (sinkAppend ev s).latOy = s.latOy := rfl
@[simp] theorem sinkAppend_latCin : (sinkAppend ev s).latCin = s.latCin := rfl
@[simp] theorem sinkAppend_row : (sinkAppend ev s).row = s.row := rfl
@[simp] theorem sinkAppend_col : (sinkAppend ev s).col = s.col := rfl
@[simp] theorem sinkAppend_hist : (sinkAppend ev s).hist = s.hist ++ [ev] := rfl
@[simp] theorem sinkAppend_replies : (sinkAppend ev s).replies = s.replies := rfl
@[simp] theorem sinkAppend_turns : (sinkAppend ev s).turns = s.turns := rfl
@[simp] theorem sinkAppend_draws : (sinkAppend ev s).draws = s.draws := rfl
@[simp] theorem sinkAppend_hostDone : (sinkAppend ev s).hostDone = s.hostDone := rfl

@[simp] theorem releaseP0_config : (releaseP0 s).config = s.config := rfl
@[simp] theorem releaseP0_status : (releaseP0 s).status = s.status := rfl
@[simp] theorem releaseP0_arb : (releaseP0 s).arb = { s.arb with owner := none, reqP0 := false } := rfl
@[simp] theorem releaseP0_originX : (releaseP0 s).originX = s.originX := rfl
@[simp] theorem releaseP0_originY : (releaseP0 s).originY = s.originY := rfl
@[simp] theorem releaseP0_convIn : (releaseP0 s).convIn = s.convIn := rfl
@[simp] theorem releaseP0_convOut : (releaseP0 s).convOut = s.convOut := rfl
@[simp] theorem releaseP0_hdr : (releaseP0 s).hdr = s.hdr := rfl
@[simp] theorem releaseP0_pixCount : (releaseP0 s).pixCount = s.pixCount := rfl
@[simp] theorem releaseP0_errInfo : (releaseP0 s).errInfo = s.errInfo := rfl
@[simp] theorem releaseP0_cursor : (releaseP0 s).cursor = s.cursor := rfl
@[simp] theorem releaseP0_fsm : (releaseP0 s).fsm = s.fsm := rfl
@[simp] theorem releaseP0_thenBlit : (releaseP0 s).thenBlit = s.thenBlit := rfl
@[simp] theorem releaseP0_latOx : (releaseP0 s).latOx = s.latOx := rfl
@[simp] theorem releaseP0_latOy : (releaseP0 s).latOy = s.latOy := rfl
@[simp] theorem releaseP0_latCin : (releaseP0 s).latCin = s.latCin := rfl
@[simp] theorem releaseP0_row : (releaseP0 s).row = s.row := rfl
@[simp] theorem releaseP0_col : (releaseP0 s).col = s.col := rfl
@[simp] theorem releaseP0_hist : (releaseP0 s).hist = s.hist := rfl
@[simp] theorem releaseP0_replies : (releaseP0 s).replies = s.replies := rfl
@[simp] theorem releaseP0_turns : (releaseP0 s).turns = s.turns := rfl
@[simp] theorem releaseP0_draws : (releaseP0 s).draws = s.draws := rfl
@[simp] theorem releaseP0_hostDone : (releaseP0 s).hostDone = s.hostDone := rfl

@[simp] theorem resetBlock_config : (resetBlock s).config = s.config := rfl
@[simp] theorem resetBlock_status : (resetBlock s).status = (State.launch s.config).status := rfl
@[simp] theorem resetBlock_arb : (resetBlock s).arb = (State.launch s.config).arb := rfl
@[simp] theorem resetBlock_originX : (resetBlock s).originX = (State.launch s.config).originX := rfl
@[simp] theorem resetBlock_originY : (resetBlock s).originY = (State.launch s.config).originY := rfl
@[simp] theorem resetBlock_convIn : (resetBlock s).convIn = (State.launch s.config).convIn := rfl
@[simp] theorem resetBlock_convOut : (resetBlock s).convOut = (State.launch s.config).convOut := rfl
@[simp] theorem resetBlock_hdr : (resetBlock s).hdr = (State.launch s.config).hdr := rfl
@[simp] theorem resetBlock_pixCount : (resetBlock s).pixCount = (State.launch s.config).pixCount := rfl
@[simp] theorem resetBlock_errInfo : (resetBlock s).errInfo = (State.launch s.config).errInfo := rfl
@[simp] theorem resetBlock_cursor : (resetBlock s).cursor = (State.launch s.config).cursor := rfl
@[simp] theorem resetBlock_fsm : (resetBlock s).fsm = (State.launch s.config).fsm := rfl
@[simp] theorem resetBlock_thenBlit : (resetBlock s).thenBlit = (State.launch s.config).thenBlit := rfl
@[simp] theorem resetBlock_latOx : (resetBlock s).latOx = (State.launch s.config).latOx := rfl
@[simp] theorem resetBlock_latOy : (resetBlock s).latOy = (State.launch s.config).latOy := rfl
@[simp] theorem resetBlock_latCin : (resetBlock s).latCin = (State.launch s.config).latCin := rfl
@[simp] theorem resetBlock_row : (resetBlock s).row = (State.launch s.config).row := rfl
@[simp] theorem resetBlock_col : (resetBlock s).col = (State.launch s.config).col := rfl
@[simp] theorem resetBlock_hist : (resetBlock s).hist = s.hist := rfl
@[simp] theorem resetBlock_replies : (resetBlock s).replies = s.replies := rfl
@[simp] theorem resetBlock_turns : (resetBlock s).turns = s.turns := rfl
@[simp] theorem resetBlock_draws : (resetBlock s).draws = s.draws := rfl
@[simp] theorem resetBlock_hostDone : (resetBlock s).hostDone = s.hostDone := rfl

@[simp] theorem startWalk_config : (startWalk s).config = s.config := rfl
@[simp] theorem startWalk_status : (startWalk s).status = s.status := rfl
@[simp] theorem startWalk_arb : (startWalk s).arb = { s.arb with reqP0 := true } := rfl
@[simp] theorem startWalk_originX : (startWalk s).originX = s.originX := rfl
@[simp] theorem startWalk_originY : (startWalk s).originY = s.originY := rfl
@[simp] theorem startWalk_convIn : (startWalk s).convIn = s.convIn := rfl
@[simp] theorem startWalk_convOut : (startWalk s).convOut = s.convOut := rfl
@[simp] theorem startWalk_hdr : (startWalk s).hdr = s.hdr := rfl
@[simp] theorem startWalk_pixCount : (startWalk s).pixCount = s.pixCount := rfl
@[simp] theorem startWalk_errInfo : (startWalk s).errInfo = s.errInfo := rfl
@[simp] theorem startWalk_cursor : (startWalk s).cursor = s.hdr.pixelOffset := rfl
@[simp] theorem startWalk_fsm : (startWalk s).fsm = .blitPix := rfl
@[simp] theorem startWalk_thenBlit : (startWalk s).thenBlit = s.thenBlit := rfl
@[simp] theorem startWalk_latOx : (startWalk s).latOx = s.latOx := rfl
@[simp] theorem startWalk_latOy : (startWalk s).latOy = s.latOy := rfl
@[simp] theorem startWalk_latCin : (startWalk s).latCin = s.latCin := rfl
@[simp] theorem startWalk_row : (startWalk s).row = s.hdr.height := rfl
@[simp] theorem startWalk_col : (startWalk s).col = 0 := rfl
@[simp] theorem startWalk_hist : (startWalk s).hist = s.hist := rfl
@[simp] theorem startWalk_replies : (startWalk s).replies = s.replies := rfl
@[simp] theorem startWalk_turns : (startWalk s).turns = s.turns := rfl
@[simp] theorem startWalk_draws : (startWalk s).draws = s.draws := rfl
@[simp] theorem startWalk_hostDone : (startWalk s).hostDone = s.hostDone := rfl

@[simp] theorem acceptParse_config : (acceptParse s).config = s.config := rfl
@[simp] theorem acceptParse_status : (acceptParse s).status = { s.status with hdrValid := false } := rfl
@[simp] theorem acceptParse_arb : (acceptParse s).arb = s.arb := rfl
@[simp] theorem acceptParse_originX : (acceptParse s).originX = s.originX := rfl
@[simp] theorem acceptParse_originY : (acceptParse s).originY = s.originY := rfl
@[simp] theorem acceptParse_convIn : (acceptParse s).convIn = s.convIn := rfl
@[simp] theorem acceptParse_convOut : (acceptParse s).convOut = s.convOut := rfl
@[simp] theorem acceptParse_hdr : (acceptParse s).hdr = .zero := rfl
@[simp] theorem acceptParse_pixCount : (acceptParse s).pixCount = s.pixCount := rfl
@[simp] theorem acceptParse_errInfo : (acceptParse s).errInfo = s.errInfo := rfl
@[simp] theorem acceptParse_cursor : (acceptParse s).cursor = s.cursor := rfl
@[simp] theorem acceptParse_fsm : (acceptParse s).fsm = .parse := rfl
@[simp] theorem acceptParse_thenBlit : (acceptParse s).thenBlit = false := rfl
@[simp] theorem acceptParse_latOx : (acceptParse s).latOx = s.latOx := rfl
@[simp] theorem acceptParse_latOy : (acceptParse s).latOy = s.latOy := rfl
@[simp] theorem acceptParse_latCin : (acceptParse s).latCin = s.latCin := rfl
@[simp] theorem acceptParse_row : (acceptParse s).row = s.row := rfl
@[simp] theorem acceptParse_col : (acceptParse s).col = s.col := rfl
@[simp] theorem acceptParse_hist : (acceptParse s).hist = s.hist := rfl
@[simp] theorem acceptParse_replies : (acceptParse s).replies = s.replies := rfl
@[simp] theorem acceptParse_turns : (acceptParse s).turns = s.turns := rfl
@[simp] theorem acceptParse_draws : (acceptParse s).draws = s.draws := rfl
@[simp] theorem acceptParse_hostDone : (acceptParse s).hostDone = s.hostDone := rfl

@[simp] theorem acceptBlit_config : (acceptBlit s).config = s.config := rfl
@[simp] theorem acceptBlit_status : (acceptBlit s).status = s.status := rfl
@[simp] theorem acceptBlit_arb : (acceptBlit s).arb = s.arb := rfl
@[simp] theorem acceptBlit_originX : (acceptBlit s).originX = s.originX := rfl
@[simp] theorem acceptBlit_originY : (acceptBlit s).originY = s.originY := rfl
@[simp] theorem acceptBlit_convIn : (acceptBlit s).convIn = s.convIn := rfl
@[simp] theorem acceptBlit_convOut : (acceptBlit s).convOut = s.convOut := rfl
@[simp] theorem acceptBlit_hdr : (acceptBlit s).hdr = s.hdr := rfl
@[simp] theorem acceptBlit_pixCount : (acceptBlit s).pixCount = 0 := rfl
@[simp] theorem acceptBlit_errInfo : (acceptBlit s).errInfo = s.errInfo := rfl
@[simp] theorem acceptBlit_cursor : (acceptBlit s).cursor = s.cursor := rfl
@[simp] theorem acceptBlit_fsm : (acceptBlit s).fsm = .blitCheck := rfl
@[simp] theorem acceptBlit_thenBlit : (acceptBlit s).thenBlit = s.thenBlit := rfl
@[simp] theorem acceptBlit_latOx : (acceptBlit s).latOx = s.latOx := rfl
@[simp] theorem acceptBlit_latOy : (acceptBlit s).latOy = s.latOy := rfl
@[simp] theorem acceptBlit_latCin : (acceptBlit s).latCin = s.latCin := rfl
@[simp] theorem acceptBlit_row : (acceptBlit s).row = s.row := rfl
@[simp] theorem acceptBlit_col : (acceptBlit s).col = s.col := rfl
@[simp] theorem acceptBlit_hist : (acceptBlit s).hist = s.hist := rfl
@[simp] theorem acceptBlit_replies : (acceptBlit s).replies = s.replies := rfl
@[simp] theorem acceptBlit_turns : (acceptBlit s).turns = s.turns := rfl
@[simp] theorem acceptBlit_draws : (acceptBlit s).draws = s.draws := rfl
@[simp] theorem acceptBlit_hostDone : (acceptBlit s).hostDone = s.hostDone := rfl

@[simp] theorem acceptDecodeBlit_config : (acceptDecodeBlit s).config = s.config := rfl
@[simp] theorem acceptDecodeBlit_status : (acceptDecodeBlit s).status = { s.status with hdrValid := false } := rfl
@[simp] theorem acceptDecodeBlit_arb : (acceptDecodeBlit s).arb = s.arb := rfl
@[simp] theorem acceptDecodeBlit_originX : (acceptDecodeBlit s).originX = s.originX := rfl
@[simp] theorem acceptDecodeBlit_originY : (acceptDecodeBlit s).originY = s.originY := rfl
@[simp] theorem acceptDecodeBlit_convIn : (acceptDecodeBlit s).convIn = s.convIn := rfl
@[simp] theorem acceptDecodeBlit_convOut : (acceptDecodeBlit s).convOut = s.convOut := rfl
@[simp] theorem acceptDecodeBlit_hdr : (acceptDecodeBlit s).hdr = .zero := rfl
@[simp] theorem acceptDecodeBlit_pixCount : (acceptDecodeBlit s).pixCount = 0 := rfl
@[simp] theorem acceptDecodeBlit_errInfo : (acceptDecodeBlit s).errInfo = s.errInfo := rfl
@[simp] theorem acceptDecodeBlit_cursor : (acceptDecodeBlit s).cursor = s.cursor := rfl
@[simp] theorem acceptDecodeBlit_fsm : (acceptDecodeBlit s).fsm = .parse := rfl
@[simp] theorem acceptDecodeBlit_thenBlit : (acceptDecodeBlit s).thenBlit = true := rfl
@[simp] theorem acceptDecodeBlit_latOx : (acceptDecodeBlit s).latOx = s.latOx := rfl
@[simp] theorem acceptDecodeBlit_latOy : (acceptDecodeBlit s).latOy = s.latOy := rfl
@[simp] theorem acceptDecodeBlit_latCin : (acceptDecodeBlit s).latCin = s.latCin := rfl
@[simp] theorem acceptDecodeBlit_row : (acceptDecodeBlit s).row = s.row := rfl
@[simp] theorem acceptDecodeBlit_col : (acceptDecodeBlit s).col = s.col := rfl
@[simp] theorem acceptDecodeBlit_hist : (acceptDecodeBlit s).hist = s.hist := rfl
@[simp] theorem acceptDecodeBlit_replies : (acceptDecodeBlit s).replies = s.replies := rfl
@[simp] theorem acceptDecodeBlit_turns : (acceptDecodeBlit s).turns = s.turns := rfl
@[simp] theorem acceptDecodeBlit_draws : (acceptDecodeBlit s).draws = s.draws := rfl
@[simp] theorem acceptDecodeBlit_hostDone : (acceptDecodeBlit s).hostDone = s.hostDone := rfl

@[simp] theorem acceptConvert_config : (acceptConvert s).config = s.config := rfl
@[simp] theorem acceptConvert_status : (acceptConvert s).status = s.status := rfl
@[simp] theorem acceptConvert_arb : (acceptConvert s).arb = s.arb := rfl
@[simp] theorem acceptConvert_originX : (acceptConvert s).originX = s.originX := rfl
@[simp] theorem acceptConvert_originY : (acceptConvert s).originY = s.originY := rfl
@[simp] theorem acceptConvert_convIn : (acceptConvert s).convIn = s.convIn := rfl
@[simp] theorem acceptConvert_convOut : (acceptConvert s).convOut = s.convOut := rfl
@[simp] theorem acceptConvert_hdr : (acceptConvert s).hdr = s.hdr := rfl
@[simp] theorem acceptConvert_pixCount : (acceptConvert s).pixCount = s.pixCount := rfl
@[simp] theorem acceptConvert_errInfo : (acceptConvert s).errInfo = s.errInfo := rfl
@[simp] theorem acceptConvert_cursor : (acceptConvert s).cursor = s.cursor := rfl
@[simp] theorem acceptConvert_fsm : (acceptConvert s).fsm = .conv := rfl
@[simp] theorem acceptConvert_thenBlit : (acceptConvert s).thenBlit = s.thenBlit := rfl
@[simp] theorem acceptConvert_latOx : (acceptConvert s).latOx = s.latOx := rfl
@[simp] theorem acceptConvert_latOy : (acceptConvert s).latOy = s.latOy := rfl
@[simp] theorem acceptConvert_latCin : (acceptConvert s).latCin = s.latCin := rfl
@[simp] theorem acceptConvert_row : (acceptConvert s).row = s.row := rfl
@[simp] theorem acceptConvert_col : (acceptConvert s).col = s.col := rfl
@[simp] theorem acceptConvert_hist : (acceptConvert s).hist = s.hist := rfl
@[simp] theorem acceptConvert_replies : (acceptConvert s).replies = s.replies := rfl
@[simp] theorem acceptConvert_turns : (acceptConvert s).turns = s.turns := rfl
@[simp] theorem acceptConvert_draws : (acceptConvert s).draws = s.draws := rfl
@[simp] theorem acceptConvert_hostDone : (acceptConvert s).hostDone = s.hostDone := rfl

@[simp] theorem placeTurn_config : (placeTurn ready a s).config = s.config := rfl
@[simp] theorem placeTurn_status : (placeTurn ready a s).status = s.status := rfl
@[simp] theorem placeTurn_arb : (placeTurn ready a s).arb = s.arb := rfl
@[simp] theorem placeTurn_originX : (placeTurn ready a s).originX = s.originX := rfl
@[simp] theorem placeTurn_originY : (placeTurn ready a s).originY = s.originY := rfl
@[simp] theorem placeTurn_convIn : (placeTurn ready a s).convIn = s.convIn := rfl
@[simp] theorem placeTurn_convOut : (placeTurn ready a s).convOut = s.convOut := rfl
@[simp] theorem placeTurn_hdr : (placeTurn ready a s).hdr = s.hdr := rfl
@[simp] theorem placeTurn_pixCount : (placeTurn ready a s).pixCount = s.pixCount := rfl
@[simp] theorem placeTurn_errInfo : (placeTurn ready a s).errInfo = s.errInfo := rfl
@[simp] theorem placeTurn_cursor : (placeTurn ready a s).cursor = s.cursor := rfl
@[simp] theorem placeTurn_fsm : (placeTurn ready a s).fsm = s.fsm := rfl
@[simp] theorem placeTurn_thenBlit : (placeTurn ready a s).thenBlit = s.thenBlit := rfl
@[simp] theorem placeTurn_latOx : (placeTurn ready a s).latOx = s.latOx := rfl
@[simp] theorem placeTurn_latOy : (placeTurn ready a s).latOy = s.latOy := rfl
@[simp] theorem placeTurn_latCin : (placeTurn ready a s).latCin = s.latCin := rfl
@[simp] theorem placeTurn_row : (placeTurn ready a s).row = s.row := rfl
@[simp] theorem placeTurn_col : (placeTurn ready a s).col = s.col := rfl
@[simp] theorem placeTurn_hist : (placeTurn ready a s).hist = s.hist := rfl
@[simp] theorem placeTurn_replies : (placeTurn ready a s).replies = s.replies := rfl
@[simp] theorem placeTurn_turns : (placeTurn ready a s).turns = { sinkReady := ready, action := a } :: s.turns := rfl
@[simp] theorem placeTurn_draws : (placeTurn ready a s).draws = s.draws := rfl
@[simp] theorem placeTurn_hostDone : (placeTurn ready a s).hostDone = s.hostDone := rfl

end Sys2Proof.Machine
end

