-- ==== Sys2Proof/Laws/Ops.lean ====
section
/-! SUPPORT. What each shared operation can do, said once. -/

namespace Sys2Proof.Machine

/-! ### Turns -/

@[simp] theorem takeTurn_placeTurn (ready : Bool) (a : Action) (s : State) :
    takeTurn (placeTurn ready a s) = ({ sinkReady := ready, action := a }, s) := rfl

@[simp] theorem nextTurn_placeTurn (ready : Bool) (a : Action) (s : State) :
    nextTurn (placeTurn ready a s) = { sinkReady := ready, action := a } := rfl

theorem step_placeTurn (ready : Bool) (a : Action) (s : State) :
    step (placeTurn ready a s) = perform { sinkReady := ready, action := a } s := rfl

theorem step_engine (ready : Bool) (s : State) :
    step (placeTurn ready .engine s) = .next (engineStep ready s) := rfl

theorem step_write (ready : Bool) (w : BitVec 6) (data : Word) (s : State) :
    step (placeTurn ready (.host (.wr w data)) s) = hostWrite w data s := rfl

theorem step_command (ready : Bool) (word : Word) (s : State) :
    step (placeTurn ready (.host (.wr 0 word)) s) = hostWriteCmd word s := rfl

theorem step_read (ready : Bool) (w : BitVec 6) (s : State) :
    step (placeTurn ready (.host (.rd w)) s) = .next (hostRead w s) := rfl

theorem step_reset (ready : Bool) (s : State) : step (placeTurn ready .reset s) = .next (resetBlock s) := rfl

theorem step_hostDone (ready : Bool) (s : State) :
    step (placeTurn ready .hostDone s) = .next { s with hostDone := true } := rfl

/-- A HOST with no further access to make takes no access, laid down or free (R233). -/
theorem nextTurn_not_host {s : State} (h : hostFinished s) : isHostTurn (nextTurn s) = false := by
  obtain ⟨hd, ht⟩ := h
  unfold nextTurn takeTurn
  split
  · rename_i t rest hts
    rw [hts] at ht
    simpa using (List.all_eq_true.1 ht) t (by simp)
  · unfold offered
    split
    · rfl
    · rename_i hn
      simpa [hd] using hn

/-! ### Runs -/

theorem run_zero (s : State) : Host.Core.run core 0 s = .next s := rfl

/-- A run goes on from the state its first step leaves. -/
theorem run_succ {n : Nat} {s t : State} (h : step s = .next t) :
    Host.Core.run core (n + 1) s = Host.Core.run core n t := by
  have h' : core.step s = .next t := h
  simp [Host.Core.run, h']

/-- A run that answers a next state answered one after its first step. -/
theorem run_succ_next {n : Nat} {s t : State} (h : Host.Core.run core (n + 1) s = .next t) :
    ∃ m, step s = .next m ∧ Host.Core.run core n m = .next t := by
  have hc : core.step s = step s := rfl
  cases hs : step s with
  | next m => exact ⟨m, rfl, by rw [← run_succ hs]; exact h⟩
  | fault f => exact nomatch f
  | refused r =>
    rw [hs] at hc
    simp [Host.Core.run, hc] at h

/-- The state a step's turn is taken in differs in the model's own fields only. -/
theorem takeTurn_state (s : State) : ∃ ts n, (takeTurn s).2 = { s with turns := ts, draws := n } := by
  unfold takeTurn
  split
  · exact ⟨_, s.draws, rfl⟩
  · exact ⟨s.turns, _, rfl⟩

/-! ### The decoder -/

theorem cmdReserved_toNat (word : Word) : (cmdReserved word).toNat = word.toNat / 16 := by
  simp [cmdReserved, BitVec.extractLsb'_toNat, Nat.shiftRight_eq_div_pow]
  omega

theorem cmdOp_toNat (word : Word) : (cmdOp word).toNat = word.toNat % 16 := by
  simp [cmdOp, BitVec.extractLsb'_toNat]

theorem wordLegal_iff (word : Word) : wordLegal word = true ↔ word.toNat < 5 := by
  have h1 := cmdReserved_toNat word
  have h2 := cmdOp_toNat word
  simp only [wordLegal, Bool.and_eq_true, beq_iff_eq, decide_eq_true_eq, ← BitVec.toNat_inj]
  rw [h1, h2]
  simp only [BitVec.ofNat_eq_ofNat, BitVec.toNat_ofNat, Nat.zero_mod]
  omega

/-- What the decoder can answer: a command with its own word, or an error for an illegal word. -/
theorem decode_cases (word : Word) :
    (∃ i, decode word = .ok i ∧ word = encode i) ∨ (∃ e, decode word = .error e ∧ wordLegal word = false) := by
  by_cases h : wordLegal word = true
  · left
    have hw : word.toNat < 5 := (wordLegal_iff word).1 h
    have : word = BitVec.ofNat 32 word.toNat := by simp
    rw [this]
    generalize word.toNat = n at hw ⊢
    have : n = 0 ∨ n = 1 ∨ n = 2 ∨ n = 3 ∨ n = 4 := by omega
    rcases this with rfl | rfl | rfl | rfl | rfl
    · exact ⟨.nop, rfl, rfl⟩
    · exact ⟨.parse, rfl, rfl⟩
    · exact ⟨.blit, rfl, rfl⟩
    · exact ⟨.decodeBlit, rfl, rfl⟩
    · exact ⟨.convert, rfl, rfl⟩
  · right
    have h : wordLegal word = false := by simpa using h
    simp only [decode, decodeOp]
    split
    · rename_i hr
      have hop : ¬ (cmdOp word).toNat < 5 := by
        intro hlt
        simp [wordLegal, hr, hlt] at h
      rw [if_neg, if_neg, if_neg, if_neg, if_neg]
      · exact ⟨_, rfl, h⟩
      all_goals (intro hc; rw [hc] at hop; exact hop (by decide))
    · exact ⟨_, rfl, h⟩

/-! ### Commands -/

theorem command_busy {op : BitVec 4} {own : State → State} {s : State} (h : s.status.busy = true) :
    command op own s = drop s := by simp [command, h]

theorem command_idle {op : BitVec 4} {own : State → State} {s : State} (h : s.status.busy = false) :
    command op own s = own (accept op s) := by simp [command, h]

/-- The state a command leaves when it is accepted: the common acceptance, then its own. -/
def accepted (i : Instr) (s : State) : State :=
  match i with
  | .nop => s
  | .parse => acceptParse (accept 1 s)
  | .blit => acceptBlit (accept 2 s)
  | .decodeBlit => acceptDecodeBlit (accept 3 s)
  | .convert => acceptConvert (accept 4 s)

/-- What a command can do: nothing, a drop, or its acceptance. -/
theorem exec_cases (i : Instr) (s : State) :
    (i = .nop ∧ exec i s = .next s) ∨ (i ≠ .nop ∧ s.status.busy = true ∧ exec i s = .next (drop s)) ∨
      (i ≠ .nop ∧ s.status.busy = false ∧ exec i s = .next (accepted i s)) := by
  cases hb : s.status.busy <;> cases i <;>
    simp [exec, execNop, execParse, execBlit, execDecodeBlit, execConvert, command, hb, accepted]

/-- What a CMD write can do (R223). -/
theorem hostWriteCmd_cases (word : Word) (s : State) :
    (word = 0 ∧ hostWriteCmd word s = .next s) ∨
    (word ≠ 0 ∧ s.status.busy = true ∧ hostWriteCmd word s = .next (drop s)) ∨
    (wordLegal word = false ∧ s.status.busy = false ∧ hostWriteCmd word s = .next (refuseIllegal word s)) ∨
    (∃ i, i ≠ .nop ∧ word = encode i ∧ s.status.busy = false ∧ hostWriteCmd word s = .next (accepted i s)) := by
  rcases decode_cases word with ⟨i, hd, hw⟩ | ⟨e, hd, hw⟩
  · have he : hostWriteCmd word s = exec i s := by simp [hostWriteCmd, hd]
    have hz : i ≠ .nop → word ≠ 0 := by
      rintro hi rfl
      cases i <;> first | exact hi rfl | exact absurd hw (by decide)
    rcases exec_cases i s with ⟨hi, h⟩ | ⟨hi, hb, h⟩ | ⟨hi, hb, h⟩
    · subst hi; exact .inl ⟨hw, by rw [he, h]⟩
    · exact .inr (.inl ⟨hz hi, hb, by rw [he, h]⟩)
    · exact .inr (.inr (.inr ⟨i, hi, hw, hb, by rw [he, h]⟩))
  · have hz : word ≠ 0 := by rintro rfl; revert hw; decide
    cases hb : s.status.busy
    · exact .inr (.inr (.inl ⟨hw, rfl, by simp [hostWriteCmd, hd, hb]⟩))
    · exact .inr (.inl ⟨hz, rfl, by simp [hostWriteCmd, hd, hb]⟩)

theorem regAt_cases (w : BitVec 6) :
    (w = 0 ∧ regAt w = some .cmd) ∨ (w = 2 ∧ regAt w = some .originX) ∨ (w = 3 ∧ regAt w = some .originY) ∨
    (w = 4 ∧ regAt w = some .convIn) ∨
    (w ≠ 0 ∧ w ≠ 2 ∧ w ≠ 3 ∧ w ≠ 4 ∧ regAt w ≠ some .cmd ∧ regAt w ≠ some .originX ∧ regAt w ≠ some .originY ∧
      regAt w ≠ some .convIn) := by
  revert w; decide

/-- What a HOST write can do (R221). -/
theorem hostWrite_cases (w : BitVec 6) (data : Word) (s : State) :
    (w = 0 ∧ hostWrite w data s = hostWriteCmd data s) ∨
    (w = 2 ∧ hostWrite w data s = .next { s with originX := data }) ∨
    (w = 3 ∧ hostWrite w data s = .next { s with originY := data }) ∨
    (w = 4 ∧ hostWrite w data s = .next { s with convIn := data.extractLsb' 0 24 }) ∨
    (w ≠ 0 ∧ w ≠ 2 ∧ w ≠ 3 ∧ w ≠ 4 ∧ hostWrite w data s = .next s) := by
  rcases regAt_cases w with ⟨rfl, h⟩ | ⟨rfl, h⟩ | ⟨rfl, h⟩ | ⟨rfl, h⟩ | ⟨h0, h2, h3, h4, hc, hx, hy, hi⟩
  · exact .inl ⟨rfl, rfl⟩
  · exact .inr (.inl ⟨rfl, rfl⟩)
  · exact .inr (.inr (.inl ⟨rfl, rfl⟩))
  · exact .inr (.inr (.inr (.inl ⟨rfl, rfl⟩)))
  · refine .inr (.inr (.inr (.inr ⟨h0, h2, h3, h4, ?_⟩)))
    unfold hostWrite
    split <;> simp_all

/-! ### The parse's end and the walk -/

/-- What `Commit` can do (R138): on to BLIT_CHECK, or the finish. -/
theorem commit_cases (h : Header) (s : State) :
    (s.thenBlit = true ∧
      commit h s = { s with hdr := h, status := { s.status with hdrValid := true }, fsm := .blitCheck }) ∨
    (s.thenBlit = false ∧
      commit h s = finish .none .none 0 { s with hdr := h, status := { s.status with hdrValid := true } }) := by
  by_cases hb : s.thenBlit = true
  · exact .inl ⟨hb, by simp only [commit]; rw [if_pos hb]⟩
  · exact .inr ⟨by simpa using hb, by simp only [commit]; rw [if_neg hb]⟩

/-- `s32 (wrap32 n)` is `n` where `n` is in range (R6). -/
theorem s32_wrap32 {n : Int} (h1 : -2147483648 ≤ n) (h2 : n < 2147483648) : s32 (wrap32 n) = n := by
  simp only [wrap32, s32, BitVec.toInt_ofInt, Int.bmod_def]
  omega

/-- What the advance to the next pixel can do (R157): the next column, the next line, or the walk's end. -/
theorem advance_cases (s : State) :
    (s32 s.col + 1 < rasterW s ∧ advance s = { s with col := wrap32 (s32 s.col + 1) }) ∨
    (rasterW s ≤ s32 s.col + 1 ∧ 1 < s32 s.row ∧ advance s = { s with col := 0, row := wrap32 (s32 s.row - 1) }) ∨
    (rasterW s ≤ s32 s.col + 1 ∧ s32 s.row ≤ 1 ∧ advance s = walkEnd { s with col := 0, row := 0 }) := by
  unfold advance
  split
  · exact .inl ⟨‹_›, rfl⟩
  · split
    · exact .inr (.inl ⟨by omega, by omega, rfl⟩)
    · exact .inr (.inr ⟨by omega, by omega, rfl⟩)

end Sys2Proof.Machine
end

