-- ==== Sys2Proof/Laws/Effects.lean ====
section
/-! SUPPORT. One step, said once: everything a turn can do to the state it is taken in. -/

namespace Sys2Proof.Machine

/-- Everything the ENGINE's step can do (R234): its guards and its next state. -/
inductive EngineEffect (ready : Bool) (u : State) : State → Prop
  | hold (h : u.fsm = .idle ∨ (u.fsm = .blitPix ∧ ¬ (u.arb.owner = some .p0 ∧ ready = true))) : EngineEffect ready u u
  | parsed (h : u.fsm = .parse) (hp : parseHeader u.config.img = .ok (headerOf u.config.img)) :
      EngineEffect ready u (commit (headerOf u.config.img) u)
  | parseRaised (r : Raise) (h : u.fsm = .parse) (hp : parseHeader u.config.img = .error r) :
      EngineEffect ready u (raise r u)
  | noHeader (h : u.fsm = .blitCheck) (hv : u.status.hdrValid = false) :
      EngineEffect ready u (finish .noHeader .none 0 u)
  | emptyWalk (h : u.fsm = .blitCheck) (hv : u.status.hdrValid = true) (he : rasterW u < 1 ∨ rasterH u < 1) :
      EngineEffect ready u (finish .none .none 0 u)
  | tooShort (h : u.fsm = .blitCheck) (hv : u.status.hdrValid = true) (hw : 1 ≤ rasterW u) (hh : 1 ≤ rasterH u)
      (hx : imgLen u.config.img < rasterEnd u) :
      EngineEffect ready u (finish .truncatedData .none (satWord (rasterEnd u).toNat) u)
  | walkStarted (h : u.fsm = .blitCheck) (hv : u.status.hdrValid = true) (hw : 1 ≤ rasterW u) (hh : 1 ≤ rasterH u)
      (hx : rasterEnd u ≤ imgLen u.config.img) : EngineEffect ready u (startWalk u)
  | pixel (h : u.fsm = .blitPix) (ho : u.arb.owner = some .p0) (hr : ready = true)
      (hc : u32 u.cursor + 3 ≤ imgLen u.config.img) :
      EngineEffect ready u (writePixel (imgByte u.config.img (u32 u.cursor)) (imgByte u.config.img (u32 u.cursor + 1))
        (imgByte u.config.img (u32 u.cursor + 2)) u)
  | pixelOverran (h : u.fsm = .blitPix) (ho : u.arb.owner = some .p0) (hr : ready = true)
      (hc : imgLen u.config.img < u32 u.cursor + 3) : EngineEffect ready u (raise (overrun (u32 u.cursor + 3)) u)
  | converted (h : u.fsm = .conv) : EngineEffect ready u (convStep u)

theorem engineStep_effect (ready : Bool) (u : State) : EngineEffect ready u (engineStep ready u) := by
  unfold engineStep
  split
  · exact .hold (.inl ‹_›)
  · rename_i h
    unfold parseStep
    split
    · rename_i hp
      obtain ⟨-, rfl, -⟩ := parseHeader_ok hp
      exact .parsed h hp
    · exact .parseRaised _ h ‹_›
  · rename_i h
    unfold blitCheck
    split
    · exact .noHeader h ‹_›
    · rename_i hv
      rw [Bool.not_eq_false] at hv
      split
      · exact .emptyWalk h hv ‹_›
      · rename_i he
        split
        · exact .tooShort h hv (by omega) (by omega) ‹_›
        · exact .walkStarted h hv (by omega) (by omega) (by omega)
  · rename_i h
    unfold pixelEnabled
    split
    · rename_i hg
      simp only [Bool.and_eq_true, beq_iff_eq] at hg
      unfold pixelStep
      by_cases hc : u32 u.cursor + 3 ≤ imgLen u.config.img
      · rw [readBytes_ok hc]
        exact .pixel h hg.1 hg.2 hc
      · rw [readBytes_overrun (by omega)]
        exact .pixelOverran h hg.1 hg.2 (by omega)
    · rename_i hg
      simp only [Bool.and_eq_true, beq_iff_eq] at hg
      exact .hold (.inr ⟨h, hg⟩)
  · exact .converted ‹_›

/-- Everything a turn can do: the state `t` it leaves the state `u` in. -/
inductive TurnEffect (ready : Bool) (a : Action) (u : State) : State → Prop
  | hold (h : a ≠ .reset) (he : a ≠ .engine) : TurnEffect ready a u u
  | engine (t : State) (h : a = .engine) (he : EngineEffect ready u t) : TurnEffect ready a u t
  | grant (p : Port) (h : a = .arb) (hn : u.arb.owner = none)
      (hp : (p = .p0 ∧ u.arb.reqP0 = true) ∨ (p = .p1 ∧ u.arb.reqP1 = true)) :
      TurnEffect ready a u { u with arb := { u.arb with owner := some p } }
  | finished (h : a = .hostDone) : TurnEffect ready a u { u with hostDone := true }
  | read (w : BitVec 6) (h : a = .host (.rd w)) : TurnEffect ready a u (hostRead w u)
  | writeX (d : Word) (h : a = .host (.wr 2 d)) : TurnEffect ready a u { u with originX := d }
  | writeY (d : Word) (h : a = .host (.wr 3 d)) : TurnEffect ready a u { u with originY := d }
  | writeConv (d : Word) (h : a = .host (.wr 4 d)) : TurnEffect ready a u { u with convIn := d.extractLsb' 0 24 }
  | dropped (word : Word) (h : a = .host (.wr 0 word)) (hw : word ≠ 0) (hb : u.status.busy = true) :
      TurnEffect ready a u (drop u)
  | illegal (word : Word) (h : a = .host (.wr 0 word)) (hw : wordLegal word = false) (hb : u.status.busy = false) :
      TurnEffect ready a u (refuseIllegal word u)
  | accepted (i : Instr) (h : a = .host (.wr 0 (encode i))) (hi : i ≠ .nop) (hb : u.status.busy = false) :
      TurnEffect ready a u (accepted i u)
  | requested (h : a = .extRequest) : TurnEffect ready a u { u with arb := { u.arb with reqP1 := true } }
  | sent (call : ExtCall) (h : a = .extOp call) (ho : u.arb.owner = some .p1) (hr : ready = true) :
      TurnEffect ready a u (sinkAppend (extEvent call) u)
  | released (h : a = .extRelease) (ho : u.arb.owner = some .p1) :
      TurnEffect ready a u { u with arb := { u.arb with owner := none, reqP1 := false } }
  | reset (h : a = .reset) : TurnEffect ready a u (resetBlock u)

theorem grantee_some {p : ArbPriority} {a : Arbiter} {q : Port} (h : grantee p a = some q) :
    a.owner = none ∧ ((q = .p0 ∧ a.reqP0 = true) ∨ (q = .p1 ∧ a.reqP1 = true)) := by
  unfold grantee at h
  cases ho : a.owner <;> cases h0 : a.reqP0 <;> cases h1 : a.reqP1 <;> cases p <;> simp_all

theorem hostStep_effect {ready : Bool} {acc : HostAccess} {u t : State} (h : hostStep acc u = .next t) :
    TurnEffect ready (.host acc) u t := by
  have keep : TurnEffect ready (.host acc) u u := .hold nofun nofun
  cases acc with
  | rd w => cases h; exact .read w rfl
  | wr w d =>
    simp only [hostStep] at h
    rcases hostWrite_cases w d u with ⟨rfl, hw⟩ | ⟨rfl, hw⟩ | ⟨rfl, hw⟩ | ⟨rfl, hw⟩ | ⟨-, -, -, -, hw⟩ <;> rw [hw] at h
    · rcases hostWriteCmd_cases d u with ⟨-, hc⟩ | ⟨hz, hb, hc⟩ | ⟨hl, hb, hc⟩ | ⟨i, hi, rfl, hb, hc⟩ <;>
        rw [hc] at h <;> cases h
      · exact keep
      · exact .dropped d rfl hz hb
      · exact .illegal d rfl hl hb
      · exact .accepted i rfl hi hb
    · cases h; exact .writeX d rfl
    · cases h; exact .writeY d rfl
    · cases h; exact .writeConv d rfl
    · cases h; exact keep

theorem perform_effect {tn : Turn} {u t : State} (h : perform tn u = .next t) :
    TurnEffect tn.sinkReady tn.action u t := by
  unfold perform at h
  split at h
  · rename_i ha; cases h; exact .engine _ ha (engineStep_effect _ _)
  · rename_i ha
    cases h
    unfold grantStep
    split
    · rename_i hg
      obtain ⟨hn, hp⟩ := grantee_some hg
      exact .grant _ ha hn hp
    · exact .hold (by rw [ha]; nofun) (by rw [ha]; nofun)
  · rename_i ha; rw [ha]; exact hostStep_effect h
  · rename_i ha; cases h; exact .finished ha
  · rename_i ha
    cases h
    unfold extRequest
    split
    · exact .hold (by rw [ha]; nofun) (by rw [ha]; nofun)
    · exact .requested ha
  · rename_i call ha
    cases h
    unfold extOp
    split
    · rename_i hg; exact .sent call ha hg.1 hg.2
    · exact .hold (by rw [ha]; nofun) (by rw [ha]; nofun)
  · rename_i ha
    cases h
    unfold extRelease
    split
    · exact .released ha ‹_›
    · exact .hold (by rw [ha]; nofun) (by rw [ha]; nofun)
  · rename_i ha; cases h; exact .reset ha

/-- One step of the machine: it takes the next turn in a state that differs in the model's own fields only. -/
theorem step_effect {s t : State} (h : step s = .next t) :
    TurnEffect (nextTurn s).sinkReady (nextTurn s).action (takeTurn s).2 t := perform_effect h

/-- `accepted` says nothing of the fields no acceptance writes. -/
theorem accepted_kept (i : Instr) (s : State) :
    (accepted i s).config = s.config ∧ (accepted i s).arb = s.arb ∧ (accepted i s).hist = s.hist ∧
      (accepted i s).convOut = s.convOut ∧ (accepted i s).cursor = s.cursor ∧ (accepted i s).row = s.row ∧
      (accepted i s).col = s.col ∧ (accepted i s).replies = s.replies ∧ (accepted i s).turns = s.turns ∧
      (accepted i s).draws = s.draws ∧ (accepted i s).hostDone = s.hostDone := by
  cases i <;> exact ⟨rfl, rfl, rfl, rfl, rfl, rfl, rfl, rfl, rfl, rfl, rfl⟩

end Sys2Proof.Machine
end

