-- ==== Sys2Proof/Laws/PerInstr.lean ====
section
/-! SUPPORT. Facts about each command as syntax: the family RoundTrip (spec/30_encoding.md R95, R96). -/

namespace Sys2Proof.Laws.RoundTrip

/-- A command is well formed, its word is legal, and the word decodes to it. -/
def Statement (i : Instr) : Prop := i.wf = true ∧ wordLegal (encode i) = true ∧ decode (encode i) = .ok i

theorem nop : Statement .nop := ⟨rfl, by decide, rfl⟩
theorem parse : Statement .parse := ⟨rfl, by decide, rfl⟩
theorem blit : Statement .blit := ⟨rfl, by decide, rfl⟩
theorem decodeBlit : Statement .decodeBlit := ⟨rfl, by decide, rfl⟩
theorem convert : Statement .convert := ⟨rfl, by decide, rfl⟩

end Sys2Proof.Laws.RoundTrip
end

