-- ==== Sys2Proof/Laws/Script.lean ====
section
/-! SUPPORT. What a register reference and a script stand for. -/

namespace Sys2Proof.Machine

/-- A byte offset stands for the word index `w` exactly when it is `4w` (R90, R100). -/
theorem refIndex_offset (byte : BitVec 8) (w : BitVec 6) :
    refIndex (.offset byte) = some w ↔ byte.toNat = 4 * w.toNat := by
  have hb := byte.isLt
  have hw := w.isLt
  have h0 : byte.extractLsb' 0 2 = 0 ↔ byte.toNat % 4 = 0 := by
    rw [← BitVec.toNat_inj]; simp [BitVec.extractLsb'_toNat]
  have h2 : (byte.extractLsb' 2 6).toNat = byte.toNat / 4 := by
    simp [BitVec.extractLsb'_toNat, Nat.shiftRight_eq_div_pow]; omega
  show (if byte.extractLsb' 0 2 = 0 then some (byte.extractLsb' 2 6) else none) = some w ↔ _
  by_cases h : byte.extractLsb' 0 2 = 0
  · have hm := h0.1 h
    rw [if_pos h, Option.some.injEq, ← BitVec.toNat_inj, h2]
    omega
  · have hm := mt h0.2 h
    simp only [if_neg h, reduceCtorEq, false_iff]
    omega

/-- A register's name and its offset are the same reference (R22, R100). -/
theorem refIndex_named (r : Reg) : refIndex (.named r) = refIndex (.offset (regIndex r ++ (0 : BitVec 2))) := by
  cases r <;> rfl

/-- A script's accesses are those of its parts, one after another. -/
theorem expandScript_append (l1 l2 : List (Nat × ScriptLine)) (as bs : List HostAccess)
    (h1 : expandScript l1 = some as) (h2 : expandScript l2 = some bs) : expandScript (l1 ++ l2) = some (as ++ bs) := by
  induction l1 generalizing as with
  | nil => cases h1; exact h2
  | cons x l1 ih =>
    obtain ⟨polls, l⟩ := x
    simp only [expandScript] at h1
    split at h1
    · rename_i xs ys hx hy
      cases h1
      simp [expandScript, hx, ih ys hy]
    · exact nomatch h1

end Sys2Proof.Machine
end

