-- ==== Sys2Proof/Tests/Slice0.lean ====
section
/-! SUPPORT. The model's own tests: expected values are those of spec/95_test_vectors.md, named in each docstring. Then,
for each statement with hypotheses, a concrete state that meets all of them. -/

namespace Sys2Proof.Tests

open Sys2Proof Sys2Proof.Machine

/-! ### Small states -/

/-- V-P1, the 46-byte 2x2 image (section 0 of the vectors). -/
def vp1Bytes : List Byte :=
  [0x42, 0x4D, 0x2E, 0, 0, 0, 0, 0, 0, 0, 0x22, 0, 0, 0, 0x28, 0, 0, 0, 2, 0, 0, 0, 2, 0, 0, 0, 1, 0, 0x18, 0, 0, 0, 0, 0]
    ++ [0xFF, 0, 0, 0, 0xFF, 0, 0, 0, 0xFF, 0xFF, 0xFF, 0xFF]

/-- V-P1's header (vector P-a). -/
def vp1Header : Header :=
  { fileSize := 0x2E, pixelOffset := 0x22, headerSize := 0x28, width := 2, height := 2, planesBpp := 0x00180001,
    compression := 0 }

/-- The machine after launch with an image. -/
def loaded (bs : List Byte) : State := .launch { Config.default with img := imageOf bs }

/-- A parse about to take its step. -/
def parsing (bs : List Byte) (thenBlit : Bool) : State :=
  { loaded bs with
    status := { Status.reset with busy := true, lastOp := if thenBlit then 3 else 1 }
    fsm := .parse, thenBlit := thenBlit }

/-- A DECODE_BLIT at (10, 20) of a parsed header, before its BLIT_CHECK step (B-15). -/
def checking (bs : List Byte) (h : Header) : State :=
  { loaded bs with
    status := { Status.reset with busy := true, hdrValid := true, lastOp := 3 }
    hdr := h, originX := 10, originY := 20, latOx := 10, latOy := 20, fsm := .blitCheck, thenBlit := true }

/-- The walk of B-15, granted, at its pixel `k` in line `row` and column `col`, with the events so far. -/
def walking (k : Nat) (row col : Word) (hist : List SinkEvent) : State :=
  { checking vp1Bytes vp1Header with
    fsm := .blitPix, arb := { owner := some .p0, reqP0 := true, reqP1 := false }, row := row, col := col
    cursor := BitVec.ofNat 32 (34 + 3 * k), pixCount := BitVec.ofNat 32 k, hist := hist }

/-- The four events of B-15, in order. -/
def b15 : List SinkEvent :=
  [.pix .p0 0 22 0x001F, .pix .p0 1 22 0x07E0, .pix .p0 0 21 0xF800, .pix .p0 1 21 0xFFFF]

/-- Before the first pixel. -/
def walkFirst : State := walking 0 2 0 []
/-- Before the last pixel of the first line. -/
def walkLineEnd : State := walking 1 2 1 (b15.take 1)
/-- Before the last pixel. -/
def walkLast : State := walking 3 1 1 (b15.take 3)

/-- Idle after a successful PARSE of V-P1. -/
def idleParsed : State :=
  { loaded vp1Bytes with status := { Status.reset with done := true, hdrValid := true, lastOp := 1 }, hdr := vp1Header }

/-- An idle machine whose sink the EXT client owns. -/
def extOwned : State :=
  { loaded vp1Bytes with arb := { owner := some .p1, reqP0 := false, reqP1 := true } }

/-- Whether an outcome is a next state that passes a test. -/
def nextHas (p : State → Bool) : Host.Outcome State Fault Refusal → Bool
  | .next t => p t
  | .fault _ => false
  | .refused _ => false

/-- A test that passes gives the next state and what was tested of it. -/
theorem next_of {p : State → Prop} [DecidablePred p] {o : Host.Outcome State Fault Refusal}
    (h : nextHas (fun t => decide (p t)) o = true) : ∃ t, o = .next t ∧ p t := by
  cases o with
  | next t => exact ⟨t, rfl, of_decide_eq_true h⟩
  | fault f => exact nomatch f
  | refused r => exact nomatch h

/-- The state with one turn of an agent laid down, the sink ready. -/
def turn (a : Action) (s : State) : State := placeTurn true a s

/-! ### Well-formedness: each check, with a term it refuses -/

/-- An image whose listed bytes rise, are in range and are not 0. -/
theorem test_wf_accepts_canonical : (Memory.mk 3 [(0, 1), (2, 5)]).wf = true := by decide
theorem test_wf_refuses_zero_byte : (Memory.mk 3 [(0, 0)]).wf = false := by decide
theorem test_wf_refuses_past_length : (Memory.mk 3 [(3, 1)]).wf = false := by decide
theorem test_wf_refuses_falling : (Memory.mk 3 [(2, 1), (0, 1)]).wf = false := by decide
theorem test_wf_refuses_repeat : (Memory.mk 3 [(1, 1), (1, 2)]).wf = false := by decide
theorem test_wf_refuses_launch : (Config.mk (Memory.mk 0 [(0, 1)]) false .p0First).wf = false := by decide
theorem test_wf_vp1 : (loaded vp1Bytes).config.wf = true := by decide
theorem test_wf_instr : Instr.decodeBlit.wf = true := rfl
/-- K-2, K-4: an illegal word is refused; the last legal word is 4. -/
theorem test_wf_words : wordLegal 0x10 = false ∧ wordLegal 5 = false ∧ wordLegal 4 = true ∧ wordLegal 0 = true := by
  decide

/-! ### Decoding: words written out from R96 (bits 31:4 zero, then the opcode) -/

theorem test_decode_nop : decode 0b0000000000000000000000000000_0000#32 = .ok .nop := by decide
theorem test_decode_parse : decode 0b0000000000000000000000000000_0001#32 = .ok .parse := by decide
theorem test_decode_blit : decode 0b0000000000000000000000000000_0010#32 = .ok .blit := by decide
theorem test_decode_decodeBlit : decode 0b0000000000000000000000000000_0011#32 = .ok .decodeBlit := by decide
theorem test_decode_convert : decode 0b0000000000000000000000000000_0100#32 = .ok .convert := by decide
theorem test_decode_reserved_op : decode 0b0000000000000000000000000000_0101#32 = .error .reservedOpcode ∧
    decode 0b0000000000000000000000000000_1111#32 = .error .reservedOpcode := by decide
theorem test_decode_reserved_bits : decode 0b0000000000000000000000000001_0000#32 = .error .reservedBits ∧
    decode 0b1000000000000000000000000000_0001#32 = .error .reservedBits := by decide
theorem test_encode : encode .nop = 0 ∧ encode .parse = 1 ∧ encode .blit = 2 ∧ encode .decodeBlit = 3 ∧
    encode .convert = 4 := by decide
theorem test_decodeTableWord : decodeTableWord 32 3 = some .decodeBlit ∧ decodeTableWord 32 0x10 = none ∧
    decodeTableWord 32 (2 ^ 32 + 1) = some .parse := by decide
/-- The word laid down is the next step's command. -/
theorem test_withFetchWord :
    nextHas (fun t => t.fsm = .conv ∧ t.turns = []) (step (State.reset.withFetchWord 32 4)) = true := by decide

/-! ### One step of each command -/

/-- K-6: NOP while BUSY sets nothing. -/
theorem test_nop_busy : nextHas (fun t => t = parsing vp1Bytes true) (exec .nop (parsing vp1Bytes true)) = true := by
  decide
/-- K-9: NOP keeps an error. -/
theorem test_nop_keeps_error :
    nextHas (fun t => statusWord t = 0x00007042 ∧ t.errInfo = 7) (exec .nop (refuseIllegal 7 (loaded vp1Bytes))) = true := by
  decide
/-- R131: an older header is cleared at acceptance. -/
theorem test_parse_clears : nextHas (fun t => statusWord t = 0x00001001 ∧ t.hdr = .zero) (exec .parse idleParsed) = true := by
  decide
/-- K-5: a PARSE while BUSY is dropped with OVR. -/
theorem test_parse_dropped :
    nextHas (fun t => statusWord t = 0x00003009 ∧ t.fsm = .parse) (exec .parse (parsing vp1Bytes true)) = true := by decide
/-- R150: BLIT keeps the header. -/
theorem test_blit_keeps_header :
    nextHas (fun t => statusWord t = 0x00002005 ∧ t.hdr = vp1Header ∧ t.fsm = .blitCheck) (exec .blit idleParsed) = true := by
  decide
/-- B-15, its first step. -/
theorem test_decodeBlit_accepted :
    nextHas (fun t => statusWord t = 0x00003001 ∧ t.latOx = 10 ∧ t.latOy = 20 ∧ t.thenBlit = true ∧ t.fsm = .parse)
      (exec .decodeBlit { loaded vp1Bytes with originX := 10, originY := 20 }) = true := by decide
/-- K-8: acceptance clears OVR and keeps HDR_VALID. -/
theorem test_convert_clears_ovr :
    nextHas (fun t => statusWord t = 0x00004005 ∧ t.latCin = 0x123456)
      (exec .convert { idleParsed with status := { idleParsed.status with ovr := true }, convIn := 0x123456 }) = true := by
  decide
/-- K-1, K-3: an illegal word. -/
theorem test_illegal : nextHas (fun t => statusWord t = 0x00007042 ∧ t.errInfo = 7) (hostWriteCmd 7 (loaded vp1Bytes)) = true
    ∧ nextHas (fun t => statusWord t = 0x0000F042) (hostWriteCmd 0xFFFFFFFF (loaded vp1Bytes)) = true := by decide
/-- K-7: an illegal word while BUSY is dropped. -/
theorem test_illegal_busy : nextHas (fun t => statusWord t = 0x00003009) (hostWriteCmd 7 (parsing vp1Bytes true)) = true := by
  decide

/-! ### The ENGINE, the arbiter and the port -/

/-- P-a and the second row of B-15's trace. -/
theorem test_parse_step : (parseStep (parsing vp1Bytes false)).hdr = vp1Header
    ∧ statusWord (parseStep (parsing vp1Bytes false)) = 0x00001006
    ∧ statusWord (parseStep (parsing vp1Bytes true)) = 0x00003005 := by decide
/-- V-S2: each format error alone. -/
theorem test_parse_errors : statusWord (parseStep (parsing ((vp1Bytes.set 0 0x4D).set 1 0x42) false)) = 0x00001112
    ∧ statusWord (parseStep (parsing (vp1Bytes.set 26 2) false)) = 0x00001212
    ∧ statusWord (parseStep (parsing (vp1Bytes.set 30 1) false)) = 0x00001312 := by decide
/-- P-g: the plane count is checked before byte 28 is missed. -/
theorem test_planes_before_truncation :
    (parseStep (parsing ((vp1Bytes.set 26 2).take 28) false)).errInfo = 26 := by decide
/-- B-15's third row. -/
theorem test_check_starts_walk : let t := blitCheck (checking vp1Bytes vp1Header)
    statusWord t = 0x00043005 ∧ t.cursor = 34 ∧ t.row = 2 ∧ t.col = 0 := by decide
/-- B-4, B-12, B-5: the extent check. -/
theorem test_check_extent : (blitCheck (checking (vp1Bytes.take 45) vp1Header)).errInfo = 0x2E
    ∧ (blitCheck (checking (vp1Bytes.take 34) { vp1Header with pixelOffset := 0xFFFFFF00, width := 1, height := 1 })).errInfo
        = 0xFFFFFF03
    ∧ (blitCheck (checking (vp1Bytes.take 34) { vp1Header with width := 0x7FFFFFFF, height := 0x7FFFFFFF })).errInfo
        = 0xFFFFFFFF := by decide
/-- B-3, B-11: the empty walk comes first. -/
theorem test_check_empty : statusWord (blitCheck (checking vp1Bytes { vp1Header with height := 0xFFFFFFFE })) = 0x00003006
    ∧ statusWord (blitCheck (checking vp1Bytes { vp1Header with width := 0, pixelOffset := 0xFFFFFF00 })) = 0x00003006 := by
  decide
/-- B-15, pixels 0, 1 and 3. -/
theorem test_pixels : engineStep true walkFirst = walking 1 2 1 (b15.take 1)
    ∧ engineStep true walkLineEnd = walking 2 1 0 (b15.take 2)
    ∧ statusWord (engineStep true walkLast) = 0x00003006 ∧ (engineStep true walkLast).hist = b15
    ∧ (engineStep true walkLast).cursor = 46 := by decide
/-- B-7: ORIGIN_X counts where ORIGIN_X_ADD is true. -/
theorem test_origin_x_add :
    (engineStep true { walkFirst with config := { walkFirst.config with originXAdd := true } }).hist
      = [.pix .p0 10 22 0x001F] := by decide
/-- B-6: y wraps. -/
theorem test_y_wraps : (engineStep true { walkFirst with latOy := 0x7FFFFFFF, row := 1 }).hist
    = [.pix .p0 0 0x80000000 0x001F] := by decide
/-- A-3: a sink that is not ready holds the ENGINE. -/
theorem test_not_ready : engineStep false walkFirst = walkFirst := by decide
/-- The rows of the Pack565 table. -/
theorem test_pack565 : pack565 0xFF 0 0 = 0xF800 ∧ pack565 0 0xFF 0 = 0x07E0 ∧ pack565 0 0 0xFF = 0x001F
    ∧ pack565 0x07 0x03 0x07 = 0 ∧ pack565 0x08 0x04 0x08 = 0x0821 ∧ pack565 0x12 0x34 0x56 = 0x11AA
    ∧ pack565 0xAB 0xCD 0xEF = 0xAE7D := by decide
/-- The convert hazard: the latched colour is packed. -/
theorem test_convert_step :
    (convStep { loaded [] with latCin := 0xFF0000, convIn := 0xFF, fsm := .conv }).convOut = 0xF800 := by decide
/-- A-1, A-2: a tie. -/
theorem test_tie : grantee .p0First { owner := none, reqP0 := true, reqP1 := true } = some .p0
    ∧ grantee .p1First { owner := none, reqP0 := true, reqP1 := true } = some .p1
    ∧ grantee .p1First { owner := some .p0, reqP0 := true, reqP1 := true } = none := by decide
/-- R233: a free turn is no HOST access once the HOST is done, and stays as it is before. -/
theorem test_offered : let t : Turn := { sinkReady := true, action := .host (.wr 0 1) }
    isHostTurn (offered true t) = false ∧ offered false t = t := by decide
/-- Step 7 of P4: an EXT pixel. -/
theorem test_ext_op : (extOp true (.setPixel 5 5 0x1234) extOwned).hist = [.pix .p1 5 5 0x1234]
    ∧ (extOp false (.setPixel 5 5 0x1234) extOwned).hist = [] := by decide
/-- K-11, K-12: ignored writes, and reads. -/
theorem test_port : nextHas (fun t => t = loaded vp1Bytes) (hostWrite 13 5 (loaded vp1Bytes)) = true
    ∧ nextHas (fun t => t = loaded vp1Bytes) (hostWrite 17 1 (loaded vp1Bytes)) = true
    ∧ readWindow 15 (loaded vp1Bytes) = 0x2E ∧ readWindow 17 (loaded vp1Bytes) = 0 := by decide
/-- The last row of the CONVERT table: bits 31:24 are dropped. -/
theorem test_conv_in : nextHas (fun t => readWindow 4 t = 0x00123456) (hostWrite 4 0xAB123456 (loaded [])) = true := by decide
/-- X-2: reset keeps HIST alone. -/
theorem test_reset : resetBlock walkLast = { loaded vp1Bytes with hist := b15.take 3 } := by decide
/-- V-S1 and section 2.1: field reads. -/
theorem test_reads : le32 0x78 0x56 0x34 0x12 = 0x12345678 ∧ le16 0 0x80 = 0x8000
    ∧ (read32 (imageOf [1, 2, 3]) 0).toOption = none ∧ (read8 (imageOf [7]) 0).toOption = some 7 := by decide
/-- R101: the accesses of a CONV line. -/
theorem test_conv_line : expandLine 1 (.conv 0xFF 0 0) = some [.wr 4 0xFF0000, .wr 0 4, .rd 1, .rd 5] := by decide
/-- K-11: both forms of `<reg>` in a script, after a comment. -/
theorem test_offset_lines : expandScript [(0, .comment "K-11"), (0, .wr (.named .status) 0xFFFFFFFF), (0, .wr (.named .pixCount) 5),
      (0, .wr (.offset 0x44) 1), (0, .rd (.named .status)), (0, .rd (.offset 0x44)), (0, .rd (.named .cmd))]
    = some [.wr 1 0xFFFFFFFF, .wr 13 5, .wr 17 1, .rd 1, .rd 17, .rd 0] := by decide
/-- R51, R67: an offset that is no multiple of 4 is on no line; the last offset of the window is 0xFC. -/
theorem test_offsets : expandLine 0 (.rd (.offset 0x46)) = none ∧ expandLine 0 (.rd (.offset 0xFC)) = some [.rd 63] := by
  decide

/-! ### Witnesses: for each statement with hypotheses, a state and operands that meet them all

`witness_<Name>` is for the statement `Obligations.<Name>`; a statement with several clauses has one state for each. -/

theorem witness_DecodeAndEncodeAgree : decode 4 = .ok .convert ∧ (4 : Word) = encode .convert := by decide

theorem witness_ReservedWordsAreNoCommand : (5 : Word).toNat / 16 = 0 ∧ 5 ≤ (5 : Word).toNat % 16 ∧
    (0x10 : Word).toNat / 16 ≠ 0 ∧ ¬ 5 ≤ (4 : Word).toNat % 16 := by decide

theorem witness_StepRunsTheDecodedCommand : decode 0 = .ok .nop ∧ decode 1 = .ok .parse ∧ decode 2 = .ok .blit ∧
    decode 3 = .ok .decodeBlit ∧ decode 4 = .ok .convert := by decide

/-- The tests of R223 in order: 0, a busy block, the first two illegal words, and the four commands. -/
theorem witness_CommandWriteIsTestedInOrder : (parsing vp1Bytes true).status.busy = true ∧ idleParsed.status.busy = false ∧
    (0x10 : Word).toNat / 16 ≠ 0 ∧ 5 ≤ (5 : Word).toNat % 16 ∧ (4 : Word).toNat = 4 := by decide

theorem witness_ParseIsAccepted : idleParsed.status.busy = false := rfl
theorem witness_BlitIsAccepted : idleParsed.status.busy = false := rfl
theorem witness_DecodeBlitIsAccepted : idleParsed.status.busy = false := rfl
theorem witness_ConvertIsAccepted : idleParsed.status.busy = false := rfl
theorem witness_AcceptanceLatchesTheOperands : Instr.convert ≠ .nop ∧ idleParsed.status.busy = false := by decide

theorem witness_WordWhileBusyIsDropped :
    (parsing vp1Bytes true).status.busy = true ∧ (1 : Word) ≠ 0 ∧ (0xFFFFFFFF : Word) ≠ 0 := by decide

/-- Opcodes 5 and 15, and one reserved bit. -/
theorem witness_IllegalWordIsRefused : idleParsed.status.busy = false ∧ 5 ≤ (5 : Word).toNat % 16 ∧
    5 ≤ (15 : Word).toNat % 16 ∧ (0x10 : Word).toNat / 16 ≠ 0 := by decide

/-- The first and the last register, and the first reserved offset. -/
theorem witness_HostReadReturnsTheMappedRegister : readWindow 1 idleParsed = statusWord idleParsed ∧
    readWindow 16 idleParsed = idleParsed.cursor ∧ readWindow 17 idleParsed = 0 ∧ readWindow 0 idleParsed = 0 := by decide

/-- A step, and both ways to have none in a walk. -/
theorem witness_EngineStepsExactlyWhenEnabled : (parsing vp1Bytes true).fsm = .parse ∧
    (checking vp1Bytes vp1Header).fsm = .blitCheck ∧ walkFirst.fsm = .blitPix ∧ walkFirst.arb.owner = some .p0 ∧
    idleParsed.fsm = .idle := by decide

theorem witness_FieldReadsAreLittleEndian : 0 + 2 ≤ (imageOf [1, 2]).len.toNat ∧ ¬ 1 + 2 ≤ (imageOf [1, 2]).len.toNat ∧
    0 + 4 ≤ (imageOf [1, 2, 3, 4]).len.toNat ∧ ¬ 1 + 4 ≤ (imageOf [1, 2, 3, 4]).len.toNat := by decide

/-- A header of exactly 34 bytes, for each value of THEN_BLIT. -/
theorem witness_ParseStepCommitsAValidHeader : ∀ thenBlit : Bool,
    let s := parsing (vp1Bytes.take 34) thenBlit
    let b (a : Nat) : Nat := (imgByte s.config.img a).toNat
    s.fsm = .parse ∧ 34 ≤ s.config.img.len.toNat ∧ b 0 = 0x42 ∧ b 1 = 0x4D ∧ b 26 = 1 ∧ b 27 = 0 ∧ b 30 = 0 ∧
      b 31 = 0 ∧ b 32 = 0 ∧ b 33 = 0 ∧ s.thenBlit = thenBlit := by decide

/-- An image of exactly two bytes (P-d). -/
theorem witness_WrongMagicEndsTheParse : let s := parsing [0, 0] false
    s.fsm = .parse ∧ 2 ≤ s.config.img.len.toNat ∧
      ¬ (imgByte s.config.img 0 = 0x42 ∧ imgByte s.config.img 1 = 0x4D) := by decide

/-- An image of exactly 28 bytes (P-g). -/
theorem witness_WrongPlaneCountEndsTheParse : let s := parsing ((vp1Bytes.set 26 2).take 28) false
    s.fsm = .parse ∧ 28 ≤ s.config.img.len.toNat ∧ imgByte s.config.img 0 = 0x42 ∧ imgByte s.config.img 1 = 0x4D ∧
      ¬ (imgByte s.config.img 26 = 1 ∧ imgByte s.config.img 27 = 0) := by decide

/-- An image of exactly 34 bytes, its last header byte set. -/
theorem witness_CompressionEndsTheParse : let s := parsing ((vp1Bytes.set 33 1).take 34) false
    s.fsm = .parse ∧ 34 ≤ s.config.img.len.toNat ∧ imgByte s.config.img 0 = 0x42 ∧ imgByte s.config.img 1 = 0x4D ∧
      imgByte s.config.img 26 = 1 ∧ imgByte s.config.img 27 = 0 ∧
      ¬ (imgByte s.config.img 30 = 0 ∧ imgByte s.config.img 31 = 0 ∧ imgByte s.config.img 32 = 0 ∧
        imgByte s.config.img 33 = 0) := by decide

/-- The first and the last length of every clause, and 34. -/
theorem witness_TruncatedHeaderReportsTheFieldEnd :
    (let s := parsing (vp1Bytes.take 34) false
     s.fsm = .parse ∧ 34 ≤ s.config.img.len.toNat ∧ s.status.err ≠ .truncatedData) ∧
    ∀ n ∈ [0, 1, 2, 5, 6, 13, 14, 17, 18, 21, 22, 25, 26, 27, 28, 29, 30, 33],
      let s := parsing (vp1Bytes.take n) false
      n = s.config.img.len.toNat ∧ s.fsm = .parse ∧ n < 34 ∧
        (2 ≤ n → imgByte s.config.img 0 = 0x42 ∧ imgByte s.config.img 1 = 0x4D) ∧
        (28 ≤ n → imgByte s.config.img 26 = 1 ∧ imgByte s.config.img 27 = 0) := by decide

theorem witness_ParseStepIgnoresTheRest : (parsing vp1Bytes true).fsm = .parse := rfl

/-- Another image of another length, other bytes 6 to 9 and another body. -/
theorem witness_ParseReadsOnlyTheHeaderFields :
    let s := parsing vp1Bytes false
    let m := imageOf ((vp1Bytes.set 6 9).take 34 ++ [7])
    s.fsm = .parse ∧ 34 ≤ s.config.img.len.toNat ∧ 34 ≤ m.len.toNat ∧
      (∀ a, a < 34 → ¬ (6 ≤ a ∧ a ≤ 9) → imgByte m a = imgByte s.config.img a) ∧ imgByte m 6 ≠ imgByte s.config.img 6 := by
  decide

/-- Each clause at its boundary: no header; W = 0 and H = 0; an extent one past the image, and one past the saturated
count; and an extent that ends at the image's end with W = H = 1. -/
theorem witness_BlitCheckGatesTheWalk :
    (accepted .blit (loaded vp1Bytes)).fsm = .blitCheck ∧ (accepted .blit (loaded vp1Bytes)).status.hdrValid = false ∧
    (let s := checking vp1Bytes { vp1Header with width := 0 }
     s.fsm = .blitCheck ∧ s.status.hdrValid = true ∧ s.hdr.width.toInt < 1 ∧ ¬ s.hdr.height.toInt < 1) ∧
    (let s := checking vp1Bytes { vp1Header with height := 0 }
     s.fsm = .blitCheck ∧ s.status.hdrValid = true ∧ ¬ s.hdr.width.toInt < 1 ∧ s.hdr.height.toInt < 1) ∧
    (let s := checking (vp1Bytes.take 36) { vp1Header with width := 1, height := 1 }
     s.fsm = .blitCheck ∧ s.status.hdrValid = true ∧ ¬ (s.hdr.width.toInt < 1 ∨ s.hdr.height.toInt < 1) ∧
       s.hdr.pixelOffset.toNat + 3 * s.hdr.width.toInt * s.hdr.height.toInt = s.config.img.len.toNat + 1) ∧
    (let s := checking (vp1Bytes.take 36) { vp1Header with width := 1, height := 1, pixelOffset := 0xFFFFFFFD }
     s.fsm = .blitCheck ∧ s.status.hdrValid = true ∧
       s.hdr.pixelOffset.toNat + 3 * s.hdr.width.toInt * s.hdr.height.toInt = 0xFFFFFFFF + 1) ∧
    (let s := checking (vp1Bytes.take 37) { vp1Header with width := 1, height := 1 }
     s.fsm = .blitCheck ∧ s.status.hdrValid = true ∧ ¬ (s.hdr.width.toInt < 1 ∨ s.hdr.height.toInt < 1) ∧
       s.hdr.pixelOffset.toNat + 3 * s.hdr.width.toInt * s.hdr.height.toInt = s.config.img.len.toNat) :=
  ⟨by decide, by decide, by decide, by decide, by decide, by decide, by decide⟩

/-- The three clauses: another column, another line, the walk's end. The last sample ends at the image's end. -/
theorem witness_PixelStepWritesOnePixel : (∀ s ∈ [walkFirst, walkLineEnd, walkLast],
      s.fsm = .blitPix ∧ s.arb.owner = some .p0 ∧ s.cursor.toNat + 3 ≤ s.config.img.len.toNat) ∧
    walkFirst.col.toInt + 1 < walkFirst.hdr.width.toInt ∧
    ¬ walkLineEnd.col.toInt + 1 < walkLineEnd.hdr.width.toInt ∧ walkLineEnd.row.toInt > 1 ∧
    ¬ walkLast.col.toInt + 1 < walkLast.hdr.width.toInt ∧ ¬ walkLast.row.toInt > 1 ∧
    walkLast.cursor.toNat + 3 = walkLast.config.img.len.toNat := by decide

theorem witness_WalkWritesItsClosedForm :
    let s := { walkFirst with turns := List.replicate 4 { sinkReady := true, action := .engine } ++ [] }
    s.fsm = .blitPix ∧ s.arb.owner = some .p0 ∧ 1 ≤ rasterW s ∧ 1 ≤ rasterH s ∧ rasterEnd s ≤ imgLen s.config.img ∧
      s.row = s.hdr.height ∧ s.col = 0 ∧ s.cursor = s.hdr.pixelOffset ∧ s.pixCount = 0 ∧ 4 = pixelTotal s ∧
      s.turns = List.replicate 4 { sinkReady := true, action := .engine } ++ [] := by decide

theorem witness_DecodeBlitRunsToItsEnd :
    let turns : List Turn := [{ sinkReady := true, action := .host (.wr 0 3) }, { sinkReady := true, action := .engine },
      { sinkReady := true, action := .engine }, { sinkReady := true, action := .arb }] ++
      List.replicate 4 { sinkReady := true, action := .engine } ++ []
    let s := { loaded vp1Bytes with turns := turns }
    let b (a : Nat) : Nat := (imgByte s.config.img a).toNat
    let le (k : Nat) : Word := BitVec.ofNat 32 (b k + 256 * b (k + 1) + 65536 * b (k + 2) + 16777216 * b (k + 3))
    let h : Header := { fileSize := le 2, pixelOffset := le 10, headerSize := le 14, width := le 18, height := le 22, planesBpp := BitVec.ofNat 32 (1 + 65536 * (b 28 + 256 * b 29)), compression := 0 }
    s.status.busy = false ∧ s.arb = { owner := none, reqP0 := false, reqP1 := false } ∧ 34 ≤ s.config.img.len.toNat ∧
      b 0 = 0x42 ∧ b 1 = 0x4D ∧ b 26 = 1 ∧ b 27 = 0 ∧ b 30 = 0 ∧ b 31 = 0 ∧ b 32 = 0 ∧ b 33 = 0 ∧
      1 ≤ h.width.toInt ∧ 1 ≤ h.height.toInt ∧ ((4 : Nat) : Int) = h.width.toInt * h.height.toInt ∧
      h.pixelOffset.toNat + 3 * 4 ≤ s.config.img.len.toNat ∧ s.turns = turns ∧ h = vp1Header := by decide

/-- The four states of the walk of B-15 in which a pixel is next meet the invariant. -/
theorem walking_inv (s : State) (hs : s ∈ [walkFirst, walkLineEnd, walkLast]) : Inv s := by
  have hw : ∀ s ∈ [walkFirst, walkLineEnd, walkLast],
      s.status.hdrValid = true ∧ 1 ≤ rasterW s ∧ 1 ≤ rasterH s ∧ rasterEnd s ≤ imgLen s.config.img ∧ 1 ≤ s32 s.row ∧
        s32 s.row ≤ rasterH s ∧ 0 ≤ s32 s.col ∧ s32 s.col < rasterW s ∧
        (u32 s.cursor : Int) = u32 s.hdr.pixelOffset + 3 * walkIndex s ∧ (u32 s.pixCount : Int) = walkIndex s := by decide
  obtain ⟨w1, w2, w3, w4, w5, w6, w7, w8, w9, w10⟩ := hw s hs
  simp only [List.mem_cons, List.not_mem_nil, or_false] at hs
  rcases hs with rfl | rfl | rfl
  all_goals
    refine ⟨by decide, by decide, by decide, ⟨by decide, by decide, by decide, by decide, by decide, by decide, by decide,
      by decide, by decide, by decide⟩, by decide, by decide, by decide, by decide, by decide, by decide, by decide,
      by decide, by decide, by decide, by decide, by decide, fun _ => ⟨w1, w2, w3, w4, w5, w6, w7, w8, w9, w10⟩⟩

/-- A parse of an image too short for its magic meets the invariant. -/
theorem parsing_inv : Inv (parsing [0] false) :=
  ⟨by decide, by decide, by decide, ⟨by decide, by decide, by decide, by decide, by decide, by decide, by decide,
    by decide, by decide, by decide⟩, by decide, by decide, by decide, by decide, by decide, by decide, by decide,
    by decide, by decide, by decide, by decide, by decide, nofun⟩

/-- An idle machine with a valid header meets the invariant. -/
theorem idleParsed_inv : Inv idleParsed :=
  ⟨by decide, by decide, by decide, ⟨by decide, by decide, by decide, by decide, by decide, by decide, by decide,
    by decide, by decide, by decide⟩, by decide, by decide, by decide, by decide, by decide, by decide, by decide,
    by decide, by decide, by decide, by decide, by decide, nofun⟩

/-- The same machine when its HOST has no further access to make. -/
def ended : State := { idleParsed with hostDone := true }

theorem ended_inv : Inv ended :=
  ⟨by decide, by decide, by decide, ⟨by decide, by decide, by decide, by decide, by decide, by decide, by decide,
    by decide, by decide, by decide⟩, by decide, by decide, by decide, by decide, by decide, by decide, by decide,
    by decide, by decide, by decide, by decide, by decide, nofun⟩

theorem turn_inv {a : Action} {s : State} (h : Inv s) : Inv (turn a s) :=
  ⟨h.image, h.idle_iff, h.busy_clear, ⟨h.err.1, h.err.2, h.err.3, h.err.4, h.err.5, h.err.6, h.err.7, h.err.8, h.err.9,
    h.err.10⟩, h.header_checked, h.header_zero, h.parse_invalid, h.parse_op, h.parse_count, h.check_count, h.check_op,
    h.walk_op, h.conv_op, h.request_iff, h.owner_p0, h.owner_p1,
    fun hf => ⟨(h.walk hf).1, (h.walk hf).2, (h.walk hf).3, (h.walk hf).4, (h.walk hf).5, (h.walk hf).6, (h.walk hf).7,
      (h.walk hf).8, (h.walk hf).9, (h.walk hf).10⟩⟩

/-- A pixel that goes on, and the pixel that ends the walk. -/
theorem witness_GrantedWalkIsUnbrokenByAnyAgent : ∀ s ∈ [walkFirst, walkLast],
    Inv (turn .engine s) ∧ GrantedWalk [] (turn .engine s) ∧ (nextTurn (turn .engine s)).action ≠ .reset ∧
      ∃ t, step (turn .engine s) = .next t ∧ (t.fsm = .idle ↔ s = walkLast) := by
  intro s hs
  have h : ∀ s ∈ [walkFirst, walkLast], (turn .engine s).fsm = .blitPix ∧ (turn .engine s).arb.owner = some .p0 ∧
      (turn .engine s).hist = [] ++ walkEvents (turn .engine s) (walkIndex (turn .engine s)).toNat ∧
      nextHas (fun t => decide (t.fsm = .idle ↔ s = walkLast)) (step (turn .engine s)) = true := by decide
  refine ⟨turn_inv (walking_inv s (by simp at hs ⊢; tauto)), ⟨(h s hs).1, (h s hs).2.1, (h s hs).2.2.1⟩, nofun,
    next_of (h s hs).2.2.2⟩

/-- A step that holds, and one that writes a pixel. -/
theorem witness_WalkProgressRises : ∀ a ∈ [Action.arb, .engine],
    Inv (turn a walkFirst) ∧ (turn a walkFirst).fsm = .blitPix ∧ (nextTurn (turn a walkFirst)).action ≠ .reset ∧
      ∃ t, step (turn a walkFirst) = .next t ∧ (t.pixCount.toNat = 1 ↔ a = .engine) := by
  intro a ha
  have h : ∀ a ∈ [Action.arb, .engine], (nextTurn (turn a walkFirst)).action ≠ .reset ∧
      nextHas (fun t => decide (t.pixCount.toNat = 1 ↔ a = .engine)) (step (turn a walkFirst)) = true := by decide
  exact ⟨turn_inv (walking_inv _ (by simp)), rfl, (h a ha).1, next_of (h a ha).2⟩

/-- Law (e)'s premises, at the ends of their ranges. -/
theorem witness_Pack565ObeysItsLaws : (0 : Byte) ≤ 0xFF ∧ (0 : Byte) ≤ 0 ∧ (0xFF : Byte) ≤ 0xFF := by decide

theorem witness_ConvertCommandPacksConvIn : idleParsed.status.busy = false := rfl

/-- A free sink that nobody asks for, that each port alone asks for, and that both ask for under each priority; and a
sink that is owned. -/
theorem witness_GrantGivesTheFreeSink :
    let ask (p : ArbPriority) (r0 r1 : Bool) : State :=
      { idleParsed with
        config := { idleParsed.config with arbPriority := p }, arb := { owner := none, reqP0 := r0, reqP1 := r1 } }
    let grants (p : ArbPriority) (r0 r1 : Bool) (o : Option Port) : Bool :=
      nextHas (fun t => decide (t = { ask p r0 r1 with arb := { owner := o, reqP0 := r0, reqP1 := r1 } }))
        (step (turn .arb (ask p r0 r1)))
    grants .p0First false false none = true ∧ grants .p1First true false (some .p0) = true ∧
      grants .p0First false true (some .p1) = true ∧ grants .p0First true true (some .p0) = true ∧
      grants .p1First true true (some .p1) = true ∧ extOwned.arb.owner ≠ none := by decide

theorem witness_ExtStepsFollowTheHandshake : extOwned.arb.owner = some .p1 ∧ walkFirst.arb.owner ≠ some .p1 := by decide

/-- An owner of each port. -/
theorem witness_OwnerAlwaysHasItsRequest : ∀ s ∈ [walkFirst, extOwned],
    (s.arb.owner = some .p0 → s.arb.reqP0 = true) ∧ (s.arb.owner = some .p1 → s.arb.reqP1 = true) ∧ s.arb.owner ≠ none ∧
      nextHas (fun _ => true) (step (turn .arb s)) = true := by decide

/-- A step that writes nothing, a pixel and an EXT event. -/
theorem witness_OnlyTheOwnerWritesTheSink : (∃ t, step (turn .arb walkFirst) = .next t ∧ t.hist = []) ∧
    (∃ t, step (turn .engine walkFirst) = .next t ∧ t.hist = b15.take 1) ∧
    (∃ t, step (turn (.extOp (.other .init [])) extOwned) = .next t ∧ t.hist = [.op .init []]) :=
  ⟨next_of (by decide), next_of (by decide), next_of (by decide)⟩

/-- A port that keeps the sink, and the three ways to lose it. -/
theorem witness_NoPortIsPreempted : walkFirst.arb.owner = some .p0 ∧ extOwned.arb.owner = some .p1 ∧
    (∃ t, step (turn .engine walkFirst) = .next t ∧ t.arb.owner = some .p0) ∧
    (∃ t, step (turn .engine walkLast) = .next t ∧ t.arb.owner = none) ∧
    (∃ t, step (turn .extRelease extOwned) = .next t ∧ t.arb.owner = none) ∧
    (∃ t, step (turn .reset walkFirst) = .next t ∧ t.arb.owner = none) :=
  ⟨rfl, rfl, next_of (by decide), next_of (by decide), next_of (by decide), next_of (by decide)⟩

theorem witness_ArbiterAndExtChangeOnlyStatus : Action.extRelease = .arb ∨ Action.extRelease = .extRequest ∨
    Action.extRelease = .extRelease ∨ ∃ call, Action.extRelease = .extOp call := .inr (.inr (.inl rfl))

theorem witness_InvariantHoldsAtLaunch : (loaded vp1Bytes).config.wf = true := by decide

theorem witness_EveryStepKeepsTheInvariant : Inv (turn .engine walkLast) ∧ ∃ t, step (turn .engine walkLast) = .next t ∧
    t.fsm = .idle := ⟨turn_inv (walking_inv _ (by simp)), next_of (by decide)⟩

theorem witness_LaunchParametersNeverChange :
    ∃ t, Host.Core.run Sys2Proof.core 1 (turn .engine walkLast) = .next t ∧ t.hist = b15 := by
  obtain ⟨t, h, p⟩ := next_of (p := fun t => t.hist = b15) (o := step (turn .engine walkLast)) (by decide)
  exact ⟨t, by rw [run_succ h, run_zero], p⟩
theorem witness_SinkHistoryOnlyGrows :
    ∃ t, Host.Core.run Sys2Proof.core 1 (turn .engine walkLast) = .next t ∧ t.hist = b15 :=
  witness_LaunchParametersNeverChange

theorem witness_BusyEndsOnlyByFinishOrReset : walkLast.status.busy = true ∧
    (∃ t, step (turn .engine walkLast) = .next t ∧ t.status.busy = false) ∧
    (∃ t, step (turn .reset walkLast) = .next t ∧ t.status.busy = false) :=
  ⟨rfl, next_of (by decide), next_of (by decide)⟩

/-- An accepted command, an illegal one and reset clear OVR. -/
theorem witness_OverrunFlagIsSticky : ∀ a ∈ [Action.host (.wr 0 4), .host (.wr 0 5), .reset],
    ∃ t, step (turn a { idleParsed with status := { idleParsed.status with ovr := true } }) = .next t ∧
      t.status.ovr = false := by
  intro a ha
  have h : ∀ a ∈ [Action.host (.wr 0 4), .host (.wr 0 5), .reset],
      nextHas (fun t => decide (t.status.ovr = false))
        (step (turn a { idleParsed with status := { idleParsed.status with ovr := true } })) = true := by decide
  exact next_of (h a ha)

/-- Each writer of the header. -/
theorem witness_HeaderHasNoOtherWriter :
    (∃ t, step (turn .reset idleParsed) = .next t ∧ t.hdr ≠ idleParsed.hdr) ∧
    (∃ t, step (turn .engine (parsing vp1Bytes true)) = .next t ∧ t.hdr ≠ (parsing vp1Bytes true).hdr) ∧
    (∃ t, step (turn (.host (.wr 0 1)) idleParsed) = .next t ∧ t.status.hdrValid = false) ∧
    (∃ t, step (turn (.host (.wr 0 3)) idleParsed) = .next t ∧ t.status.hdrValid = false) :=
  ⟨next_of (by decide), next_of (by decide), next_of (by decide), next_of (by decide)⟩

/-- Each writer of CONV_OUT, CURSOR and PIX_COUNT. -/
theorem witness_ResultRegistersHaveNoOtherWriter :
    (∃ t, step (turn .engine { loaded [] with latCin := 0xFF, fsm := .conv }) = .next t ∧ t.convOut = 0x001F) ∧
    (∃ t, step (turn .engine (checking vp1Bytes vp1Header)) = .next t ∧ t.cursor = 34) ∧
    (∃ t, step (turn .engine walkFirst) = .next t ∧ t.cursor = 37 ∧ t.pixCount = 1) ∧
    (∃ t, step (turn (.host (.wr 0 2)) { idleParsed with pixCount := 4 }) = .next t ∧ t.pixCount = 0) ∧
    (nextTurn (turn .engine walkFirst)).action ≠ .reset :=
  ⟨next_of (by decide), next_of (by decide), next_of (by decide), next_of (by decide), nofun⟩

theorem witness_ErrorsLeaveNoTrace : Inv (parsing [0] false) ∧ (parsing [0] false).fsm ≠ .idle ∧
    ∃ t, step (turn .engine (parsing [0] false)) = .next t ∧ t.status.err ≠ .none :=
  ⟨parsing_inv, by decide, next_of (by decide)⟩

/-- An idle machine whose HOST is not finished, and one whose is; the ended run then takes a free turn. -/
theorem witness_IdleStatusMeansTheRunEnded :
    (Inv (turn (.host (.rd 1)) idleParsed) ∧ (statusWord (turn (.host (.rd 1)) idleParsed)).getLsbD 0 = false ∧
      ¬ runEnded (turn (.host (.rd 1)) idleParsed)) ∧
    Inv ended ∧ (statusWord ended).getLsbD 0 = false ∧ runEnded ended ∧
    runEnded (turn .extRequest ended) ∧ (nextTurn (turn .extRequest ended)).action ≠ .reset ∧
    ∃ t, step (turn .extRequest ended) = .next t ∧ t.arb.reqP1 = true :=
  ⟨⟨turn_inv idleParsed_inv, by decide, fun h => absurd h.2.2.2.1 (by decide)⟩, ended_inv, by decide,
    ⟨rfl, rfl, nofun, rfl, rfl⟩, ⟨rfl, rfl, nofun, rfl, rfl⟩, nofun, next_of (by decide)⟩

theorem witness_ConvLineReturnsTheColour : idleParsed.status.busy = false ∧
    expandLine 1 (.conv ((0x12 : Byte).setWidth 32) ((0x34 : Byte).setWidth 32) ((0x56 : Byte).setWidth 32))
      = some [.wr 4 0x123456, .wr 0 4, .rd 1, .rd 5] := by decide

theorem witness_ImageHoldsItsBytes : vp1Bytes.length < 2 ^ 32 := by decide

theorem witness_CanonicalImagesAreEqualData : (imageOf vp1Bytes).wf = true ∧
    (imageOf vp1Bytes).len = (imageOf vp1Bytes).len ∧ ∀ a, imgByte (imageOf vp1Bytes) a = imgByte (imageOf vp1Bytes) a :=
  ⟨by decide, rfl, fun _ => rfl⟩

end Sys2Proof.Tests
end

section
/-! PROOFS. The dispatch of a HOST command write (spec/00_scope.md R8, spec/44_command_control.md R223). -/

namespace Sys2Proof.Machine

/-- The CMD arm of R223 for a word of the table: the write is the command, with no test before it. -/
theorem hostWriteCmd_of_decode {word : Word} {i : Instr} (h : decode word = .ok i) (s : State) :
    hostWriteCmd word s = exec i s := by
  simp only [hostWriteCmd, h]

/-- A row's 32-bit word reaches CMD as it stands in the table. -/
theorem tableWord_toNat (word : Word) : tableWord 32 word.toNat = word := by
  rw [tableWord, Nat.mod_eq_of_lt word.isLt, BitVec.ofNat_toNat, BitVec.setWidth_eq]

/-- The step of a state with a 32-bit command word laid down is that word's write to CMD. -/
theorem step_withFetchWord (word : Word) (s : State) :
    step (s.withFetchWord 32 word.toNat) = hostWriteCmd word s := by
  rw [State.withFetchWord, tableWord_toNat, step_command]

/-- Settles O5: both turns are the write of the word to CMD, and that write is the command it decodes to. -/
theorem stepRunsTheDecodedCommand : Obligations.StepRunsTheDecodedCommand := by
  intro s ready word i hdecode
  have hexec : hostWriteCmd word s = exec i s := hostWriteCmd_of_decode hdecode s
  constructor
  · rw [step_command, hexec]
  · rw [step_withFetchWord, hexec]

end Sys2Proof.Machine
end

section
/-! PROOFS. The frame of a step: what the ENGINE's step and every other turn leave in the registers (spec/10_state.md
R22 to R57), and what a whole run keeps. -/

namespace Sys2Proof.Machine

/-! ### What the ENGINE's own operations leave -/

section Fields

variable (s : State) (b g r : Byte) (h : Header)

@[simp] theorem convStep_config : (convStep s).config = s.config := rfl
@[simp] theorem convStep_status : (convStep s).status = statusFinished .none .none s.status := rfl
@[simp] theorem convStep_hdr : (convStep s).hdr = s.hdr := rfl
@[simp] theorem convStep_pixCount : (convStep s).pixCount = s.pixCount := rfl
@[simp] theorem convStep_cursor : (convStep s).cursor = s.cursor := rfl
@[simp] theorem convStep_hist : (convStep s).hist = s.hist := rfl

/-- Commit writes the header and the registers of a finish only (R138). -/
theorem commit_frame : commit h s = { s with hdr := (commit h s).hdr, status := (commit h s).status,
                                             errInfo := (commit h s).errInfo, fsm := (commit h s).fsm } := by
  rcases commit_cases h s with ⟨-, he⟩ | ⟨-, he⟩ <;> rw [he]
  rfl

@[simp] theorem commit_config : (commit h s).config = s.config := by rw [commit_frame]
@[simp] theorem commit_convOut : (commit h s).convOut = s.convOut := by rw [commit_frame]
@[simp] theorem commit_pixCount : (commit h s).pixCount = s.pixCount := by rw [commit_frame]
@[simp] theorem commit_cursor : (commit h s).cursor = s.cursor := by rw [commit_frame]
@[simp] theorem commit_hist : (commit h s).hist = s.hist := by rw [commit_frame]

@[simp] theorem commit_ovr : (commit h s).status.ovr = s.status.ovr := by
  rcases commit_cases h s with ⟨-, he⟩ | ⟨-, he⟩ <;> simp only [he, finish_status, statusFinished_ovr]

/-- Commit either leaves the command running or is its finish (R138). -/
theorem commit_busy : (commit h s).status.busy = s.status.busy ∨
    ((commit h s).fsm = .idle ∧ (commit h s).status.done = true) := by
  rcases commit_cases h s with ⟨-, he⟩ | ⟨-, he⟩ <;> rw [he]
  · exact .inl rfl
  · exact .inr ⟨rfl, rfl⟩

/-- The state of a pixel step before its advance: the event sent, CURSOR and PIX_COUNT moved on (R157). -/
def pixelSent (ev : SinkEvent) (s : State) : State :=
  { sinkAppend ev s with cursor := s.cursor + 3, pixCount := s.pixCount + 1 }

theorem writePixel_eq : writePixel b g r s =
    advance (pixelSent (.pix .p0 (xcoord s) (ycoord s) (pack565 r g b)) s) := rfl

/-- The advance writes COL, ROW and the registers of the walk's end only (R157, R160). -/
theorem advance_frame : advance s = { s with status := (advance s).status, arb := (advance s).arb,
                                             errInfo := (advance s).errInfo, fsm := (advance s).fsm,
                                             row := (advance s).row, col := (advance s).col } := by
  rcases advance_cases s with ⟨-, he⟩ | ⟨-, -, he⟩ | ⟨-, -, he⟩ <;> rw [he]
  rfl

/-- The advance leaves STATUS as it is or writes the finish's flags (R157, R232). -/
theorem advance_status : (advance s).status = s.status ∨
    (advance s).status = statusFinished .none .none s.status := by
  rcases advance_cases s with ⟨-, he⟩ | ⟨-, -, he⟩ | ⟨-, -, he⟩ <;> rw [he]
  · exact .inl rfl
  · exact .inl rfl
  · exact .inr rfl

/-- The advance either leaves the walk running or is its end (R157, R160). -/
theorem advance_busy : (advance s).status.busy = s.status.busy ∨
    ((advance s).fsm = .idle ∧ (advance s).status.done = true) := by
  rcases advance_cases s with ⟨-, he⟩ | ⟨-, -, he⟩ | ⟨-, -, he⟩ <;> rw [he]
  · exact .inl rfl
  · exact .inl rfl
  · exact .inr ⟨rfl, rfl⟩

@[simp] theorem advance_config : (advance s).config = s.config := by rw [advance_frame]
@[simp] theorem advance_hdr : (advance s).hdr = s.hdr := by rw [advance_frame]
@[simp] theorem advance_convOut : (advance s).convOut = s.convOut := by rw [advance_frame]
@[simp] theorem advance_hist : (advance s).hist = s.hist := by rw [advance_frame]

@[simp] theorem advance_hdrValid : (advance s).status.hdrValid = s.status.hdrValid := by
  rcases advance_status s with h | h <;> rw [h]
  rfl

@[simp] theorem advance_ovr : (advance s).status.ovr = s.status.ovr := by
  rcases advance_status s with h | h <;> rw [h]
  rfl

@[simp] theorem writePixel_config : (writePixel b g r s).config = s.config := by
  rw [writePixel_eq, advance_config]; rfl

@[simp] theorem writePixel_hdr : (writePixel b g r s).hdr = s.hdr := by
  rw [writePixel_eq, advance_hdr]; rfl

@[simp] theorem writePixel_convOut : (writePixel b g r s).convOut = s.convOut := by
  rw [writePixel_eq, advance_convOut]; rfl

@[simp] theorem writePixel_hist : (writePixel b g r s).hist =
    s.hist ++ [.pix .p0 (xcoord s) (ycoord s) (pack565 r g b)] := by
  rw [writePixel_eq, advance_hist]; rfl

@[simp] theorem writePixel_hdrValid : (writePixel b g r s).status.hdrValid = s.status.hdrValid := by
  rw [writePixel_eq, advance_hdrValid]; rfl

@[simp] theorem writePixel_ovr : (writePixel b g r s).status.ovr = s.status.ovr := by
  rw [writePixel_eq, advance_ovr]; rfl

end Fields

/-! ### The ENGINE's step, register by register -/

section Engine

variable {ready : Bool} {u t : State}

theorem EngineEffect.config_eq (e : EngineEffect ready u t) : t.config = u.config := by
  cases e <;> simp

theorem EngineEffect.hist_prefix (e : EngineEffect ready u t) : u.hist <+: t.hist := by
  cases e with
  | pixel => rw [writePixel_hist]; exact List.prefix_append _ _
  | _ => simp

theorem EngineEffect.ovr_eq (e : EngineEffect ready u t) : t.status.ovr = u.status.ovr := by
  cases e <;> simp

/-- The ENGINE changes BUSY only by a finish (R232). -/
theorem EngineEffect.busy_eq_or_finished (e : EngineEffect ready u t) :
    t.status.busy = u.status.busy ∨ (u.fsm ≠ .idle ∧ t.fsm = .idle ∧ t.status.done = true) := by
  have active {f : Fsm} (h : u.fsm = f) (hf : f ≠ .idle) : u.fsm ≠ .idle := h ▸ hf
  cases e with
  | hold => exact .inl rfl
  | walkStarted => exact .inl rfl
  | parsed h => exact (commit_busy _ _).imp id (⟨active h nofun, ·⟩)
  | pixel h => exact (advance_busy _).imp id (⟨active h nofun, ·⟩)
  | parseRaised _ h | noHeader h | emptyWalk h | tooShort h | pixelOverran h | converted h =>
    exact .inr ⟨active h nofun, rfl, rfl⟩

/-- Only the parse step writes the header (R138). -/
theorem EngineEffect.header_eq (e : EngineEffect ready u t) (h : u.fsm ≠ .parse) :
    t.hdr = u.hdr ∧ t.status.hdrValid = u.status.hdrValid := by
  cases e with
  | parsed hp => exact absurd hp h
  | _ => simp

/-- Only the CONVERT step writes CONV_OUT (R183). -/
theorem EngineEffect.convOut_eq (e : EngineEffect ready u t) (h : u.fsm ≠ .conv) : t.convOut = u.convOut := by
  cases e with
  | converted hc => exact absurd hc h
  | _ => simp

/-- Only BLIT_CHECK and the pixel step write CURSOR (R154, R157). -/
theorem EngineEffect.cursor_eq (e : EngineEffect ready u t) (hb : u.fsm ≠ .blitCheck) (hp : u.fsm ≠ .blitPix) :
    t.cursor = u.cursor := by
  cases e with
  | walkStarted h => exact absurd h hb
  | pixel h => exact absurd h hp
  | _ => simp

/-- Only the pixel step writes PIX_COUNT (R157). -/
theorem EngineEffect.pixCount_eq (e : EngineEffect ready u t) (h : u.fsm ≠ .blitPix) : t.pixCount = u.pixCount := by
  cases e with
  | pixel hp => exact absurd hp h
  | _ => simp

end Engine

/-! ### An acceptance, register by register -/

theorem accepted_config (i : Instr) (s : State) : (accepted i s).config = s.config := by cases i <;> rfl

theorem accepted_hist (i : Instr) (s : State) : (accepted i s).hist = s.hist := by cases i <;> rfl

theorem accepted_convOut (i : Instr) (s : State) : (accepted i s).convOut = s.convOut := by cases i <;> rfl

theorem accepted_cursor (i : Instr) (s : State) : (accepted i s).cursor = s.cursor := by cases i <;> rfl

theorem accepted_busy {i : Instr} (h : i ≠ .nop) (s : State) : (accepted i s).status.busy = true := by
  cases i with
  | nop => exact absurd rfl h
  | _ => rfl

theorem encode_ne_zero {i : Instr} (h : i ≠ .nop) : encode i ≠ 0 := by
  cases i with
  | nop => exact absurd rfl h
  | _ => decide

/-! ### A turn, register by register -/

section Turn

variable {ready : Bool} {a : Action} {u t : State}

theorem TurnEffect.config_eq (e : TurnEffect ready a u t) : t.config = u.config := by
  cases e with
  | engine _ _ he => exact he.config_eq
  | accepted i => exact accepted_config i u
  | _ => rfl

theorem TurnEffect.hist_prefix (e : TurnEffect ready a u t) : u.hist <+: t.hist := by
  cases e with
  | engine _ _ he => exact he.hist_prefix
  | accepted i => rw [accepted_hist]
  | sent => exact List.prefix_append _ _
  | _ => exact List.prefix_rfl

/-- A turn ends a running command only by reset or by the ENGINE's finish (R25, R272). -/
theorem TurnEffect.busy_cases (e : TurnEffect ready a u t) (hu : u.status.busy = true) (ht : t.status.busy = false) :
    a = .reset ∨ (a = .engine ∧ u.fsm ≠ .idle ∧ t.fsm = .idle ∧ t.status.done = true) := by
  cases e with
  | reset h => exact .inl h
  | engine _ h he =>
    rcases he.busy_eq_or_finished with hb | hf
    · exact absurd (hb.trans hu) (by simp [ht])
    · exact .inr ⟨h, hf⟩
  | accepted i _ hi => exact absurd (accepted_busy hi u) (by simp [ht])
  | _ => exact nomatch hu.symm.trans ht

/-- A turn clears OVR only by reset or by a non-zero word to CMD while BUSY is 0 (R28). -/
theorem TurnEffect.ovr_cases (e : TurnEffect ready a u t) (hu : u.status.ovr = true) (ht : t.status.ovr = false) :
    a = .reset ∨ (u.status.busy = false ∧ ∃ word : Word, word ≠ 0 ∧ a = .host (.wr 0 word)) := by
  cases e with
  | reset h => exact .inl h
  | engine _ _ he => exact absurd (he.ovr_eq.trans hu) (by simp [ht])
  | illegal word h hw hb =>
    have hne : word ≠ 0 := by rintro rfl; exact absurd hw (by decide)
    exact .inr ⟨hb, word, hne, h⟩
  | accepted i h hi hb => exact .inr ⟨hb, encode i, encode_ne_zero hi, h⟩
  | dropped => exact absurd (ht : true = false) nofun
  | _ => exact nomatch hu.symm.trans ht

/-- The turns that can write the header (R27, R131, R138, R151, R271). -/
theorem TurnEffect.header_cases (e : TurnEffect ready a u t) :
    (t.hdr = u.hdr ∧ t.status.hdrValid = u.status.hdrValid) ∨ a = .reset ∨ (a = .engine ∧ u.fsm = .parse) ∨
      (u.status.busy = false ∧ (a = .host (.wr 0 1) ∨ a = .host (.wr 0 3))) := by
  cases e with
  | reset h => exact .inr (.inl h)
  | engine _ h he =>
    by_cases hp : u.fsm = .parse
    · exact .inr (.inr (.inl ⟨h, hp⟩))
    · exact .inl (he.header_eq hp)
  | accepted i h _ hb =>
    cases i with
    | parse => exact .inr (.inr (.inr ⟨hb, .inl h⟩))
    | decodeBlit => exact .inr (.inr (.inr ⟨hb, .inr h⟩))
    | _ => exact .inl ⟨rfl, rfl⟩
  | _ => exact .inl ⟨rfl, rfl⟩

/-- The turns that can write CONV_OUT (R39). -/
theorem TurnEffect.convOut_cases (e : TurnEffect ready a u t) :
    t.convOut = u.convOut ∨ a = .reset ∨ (a = .engine ∧ u.fsm = .conv) := by
  cases e with
  | reset h => exact .inr (.inl h)
  | engine _ h he =>
    by_cases hc : u.fsm = .conv
    · exact .inr (.inr ⟨h, hc⟩)
    · exact .inl (he.convOut_eq hc)
  | accepted i => exact .inl (accepted_convOut i u)
  | _ => exact .inl rfl

/-- The turns that can write CURSOR (R50). -/
theorem TurnEffect.cursor_cases (e : TurnEffect ready a u t) :
    t.cursor = u.cursor ∨ a = .reset ∨ (a = .engine ∧ (u.fsm = .blitCheck ∨ u.fsm = .blitPix)) := by
  cases e with
  | reset h => exact .inr (.inl h)
  | engine _ h he =>
    by_cases hf : u.fsm = .blitCheck ∨ u.fsm = .blitPix
    · exact .inr (.inr ⟨h, hf⟩)
    · obtain ⟨hb, hp⟩ := not_or.1 hf
      exact .inl (he.cursor_eq hb hp)
  | accepted i => exact .inl (accepted_cursor i u)
  | _ => exact .inl rfl

/-- The turns that can write PIX_COUNT (R47). -/
theorem TurnEffect.pixCount_cases (e : TurnEffect ready a u t) :
    t.pixCount = u.pixCount ∨ a = .reset ∨ (a = .engine ∧ u.fsm = .blitPix) ∨
      (u.status.busy = false ∧ (a = .host (.wr 0 2) ∨ a = .host (.wr 0 3))) := by
  cases e with
  | reset h => exact .inr (.inl h)
  | engine _ h he =>
    by_cases hp : u.fsm = .blitPix
    · exact .inr (.inr (.inl ⟨h, hp⟩))
    · exact .inl (he.pixCount_eq hp)
  | accepted i h _ hb =>
    cases i with
    | blit => exact .inr (.inr (.inr ⟨hb, .inl h⟩))
    | decodeBlit => exact .inr (.inr (.inr ⟨hb, .inr h⟩))
    | _ => exact .inl rfl
  | _ => exact .inl rfl

end Turn

/-! ### A step and a run -/

/-- A step is its turn's effect on the state itself, but for the model's own record of turns and draws (R8). -/
theorem step_effect_from {s t : State} (h : step s = .next t) :
    ∃ (ts : List Turn) (n : Nat),
      TurnEffect (nextTurn s).sinkReady (nextTurn s).action { s with turns := ts, draws := n } t := by
  obtain ⟨ts, n, hu⟩ := takeTurn_state s
  have e := step_effect h
  rw [hu] at e
  exact ⟨ts, n, e⟩

/-- A reflexive and transitive relation that every step keeps holds between the ends of every run. -/
theorem run_rel {R : State → State → Prop} (refl : ∀ s, R s s) (trans : ∀ {s m t}, R s m → R m t → R s t)
    (hstep : ∀ {s t}, step s = .next t → R s t) {n : Nat} {s t : State} (h : Host.Core.run core n s = .next t) :
    R s t := by
  induction n generalizing s with
  | zero =>
    rw [run_zero] at h
    injection h with hst
    exact hst ▸ refl s
  | succ n ih =>
    obtain ⟨m, hm, hrun⟩ := run_succ_next h
    exact trans (hstep hm) (ih hrun)

theorem step_config {s t : State} (h : step s = .next t) : t.config = s.config := by
  obtain ⟨_, _, e⟩ := step_effect_from h
  exact e.config_eq

theorem step_hist_prefix {s t : State} (h : step s = .next t) : s.hist <+: t.hist := by
  obtain ⟨_, _, e⟩ := step_effect_from h
  exact e.hist_prefix

/-- Settles O50: no step writes the parameters, so no run does. -/
theorem launchParametersNeverChange : Obligations.LaunchParametersNeverChange := by
  intro n s t h
  exact run_rel (R := fun s t => t.config = s.config) (fun _ => rfl) (fun hsm hmt => hmt.trans hsm) step_config h

/-- Settles O51: every step appends to HIST or leaves it, and prefixes compose along the run. -/
theorem sinkHistoryOnlyGrows : Obligations.SinkHistoryOnlyGrows := by
  intro n s t h
  exact run_rel (R := fun s t => s.hist <+: t.hist) (fun _ => List.prefix_rfl) List.IsPrefix.trans step_hist_prefix h

/-- Settles O52, by the cases of a turn that can take BUSY to 0. -/
theorem busyEndsOnlyByFinishOrReset : Obligations.BusyEndsOnlyByFinishOrReset := by
  intro s t hs h ht
  obtain ⟨_, _, e⟩ := step_effect_from h
  exact e.busy_cases hs ht

/-- Settles O53, by the cases of a turn that can take OVR to 0. -/
theorem overrunFlagIsSticky : Obligations.OverrunFlagIsSticky := by
  intro s t hs h ht
  obtain ⟨_, _, e⟩ := step_effect_from h
  exact e.ovr_cases hs ht

/-- Settles O54, by the cases of a turn that can write the header. -/
theorem headerHasNoOtherWriter : Obligations.HeaderHasNoOtherWriter := by
  intro s t h hne
  obtain ⟨_, _, e⟩ := step_effect_from h
  exact e.header_cases.resolve_left hne

/-- Settles O55, by the cases of a turn that can write each of the three registers. -/
theorem resultRegistersHaveNoOtherWriter : Obligations.ResultRegistersHaveNoOtherWriter := by
  intro s t h hr
  obtain ⟨_, _, e⟩ := step_effect_from h
  exact ⟨fun hne => (e.convOut_cases.resolve_left hne).resolve_left hr,
    fun hne => (e.cursor_cases.resolve_left hne).resolve_left hr,
    fun hne => (e.pixCount_cases.resolve_left hne).resolve_left hr⟩

end Sys2Proof.Machine
end

section
/-! PROOFS. Every step keeps the invariant: what the invariant reads of a state, the states between two walks, the
errors a step can leave, and the walk's progress (spec/10_state.md R52, spec/41_raster_blit.md R153 to R160). -/

namespace Sys2Proof.Machine

/-! ### What the invariant reads of a state

Two states that agree on these fields meet it together. OVR, the operand registers, the latches, CONV_OUT, HIST and the
model's own fields are not among them. -/

/-- What `ErrInv` reads. -/
def errFields (s : State) : Config × ErrCode × Cause × BitVec 4 × Bool × Word :=
  (s.config, s.status.err, s.status.cause, s.status.lastOp, s.status.done, s.errInfo)

/-- What `WalkInv` reads. -/
def walkFields (s : State) : Config × Bool × Header × Word × Word × Word × Word :=
  (s.config, s.status.hdrValid, s.hdr, s.row, s.col, s.cursor, s.pixCount)

/-- What `Inv` reads beside them. -/
def controlFields (s : State) : Bool × Arbiter × Fsm × Bool := (s.status.busy, s.arb, s.fsm, s.thenBlit)

theorem ErrInv.congr {s t : State} (h : ErrInv s) (he : errFields t = errFields s) : ErrInv t := by
  simp only [errFields, Prod.mk.injEq] at he
  obtain ⟨hconfig, herr, hcause, hop, hdone, hinfo⟩ := he
  constructor <;> simp only [hconfig, herr, hcause, hop, hdone, hinfo]
  exacts [h.cause_none, h.info_none, h.info_format, h.info_truncated, h.info_noHeader, h.info_illegal, h.op_format,
    h.op_truncated, h.op_noHeader, h.done_of_err]

theorem WalkInv.congr {s t : State} (h : WalkInv s) (hw : walkFields t = walkFields s) : WalkInv t := by
  simp only [walkFields, Prod.mk.injEq] at hw
  obtain ⟨hconfig, hvalid, hhdr, hrow, hcol, hcursor, hcount⟩ := hw
  constructor <;> simp only [rasterEnd, walkIndex, rasterW, rasterH, hconfig, hvalid, hhdr, hrow, hcol, hcursor, hcount]
  exacts [h.valid, h.width_pos, h.height_pos, h.fits, h.row_pos, h.row_le, h.col_nonneg, h.col_lt, h.cursor_eq,
    h.count_eq]

theorem Inv.congr {s t : State} (h : Inv s) (he : errFields t = errFields s) (hw : walkFields t = walkFields s)
    (hc : controlFields t = controlFields s) : Inv t := by
  have herrInv := h.err.congr he
  have hwalkInv : s.fsm = .blitPix → WalkInv t := fun hf => (h.walk hf).congr hw
  simp only [errFields, walkFields, controlFields, Prod.mk.injEq] at he hw hc
  obtain ⟨hconfig, herr, -, hop, hdone, -⟩ := he
  obtain ⟨-, hvalid, hhdr, -, -, -, hcount⟩ := hw
  obtain ⟨hbusy, harb, hfsm, hthen⟩ := hc
  constructor
  case err => exact herrInv
  case walk => rwa [hfsm]
  all_goals simp only [hconfig, herr, hop, hdone, hvalid, hhdr, hcount, hbusy, harb, hfsm, hthen]
  exacts [h.image, h.idle_iff, h.busy_clear, h.header_checked, h.header_zero, h.parse_invalid, h.parse_op,
    h.parse_count, h.check_count, h.check_op, h.walk_op, h.conv_op, h.request_iff, h.owner_p0, h.owner_p1]

/-- An arbiter whose owner asks for the sink keeps the invariant, as long as the ENGINE's own request stays (R33,
R196). -/
theorem Inv.with_arb {s : State} (h : Inv s) {a : Arbiter} (hreq : a.reqP0 = s.arb.reqP0)
    (h0 : a.owner = some .p0 → a.reqP0 = true) (h1 : a.owner = some .p1 → a.reqP1 = true) :
    Inv { s with arb := a } where
  image := h.image
  idle_iff := h.idle_iff
  busy_clear := h.busy_clear
  err := h.err.congr rfl
  header_checked := h.header_checked
  header_zero := h.header_zero
  parse_invalid := h.parse_invalid
  parse_op := h.parse_op
  parse_count := h.parse_count
  check_count := h.check_count
  check_op := h.check_op
  walk_op := h.walk_op
  conv_op := h.conv_op
  request_iff := by rw [← h.request_iff, ← hreq]
  owner_p0 := h0
  owner_p1 := h1
  walk hf := (h.walk hf).congr rfl

/-! ### Between two walks -/

/-- The part of the invariant that no command's progress touches, in a state with no walk. -/
structure OffWalk (s : State) : Prop where
  image : s.config.img.wf = true
  header_checked : s.status.hdrValid = true → s.hdr.planesBpp.extractLsb' 0 16 = 1 ∧ s.hdr.compression = 0
  header_zero : s.status.hdrValid = false → s.hdr = .zero
  no_request : s.arb.reqP0 = false
  owner_not_p0 : s.arb.owner ≠ some .p0
  owner_p1 : s.arb.owner = some .p1 → s.arb.reqP1 = true

theorem Inv.offWalk {s : State} (h : Inv s) (hf : s.fsm ≠ .blitPix) : OffWalk s where
  image := h.image
  header_checked := h.header_checked
  header_zero := h.header_zero
  no_request := by rwa [← Bool.not_eq_true, h.request_iff]
  owner_not_p0 ho := hf (h.request_iff.1 (h.owner_p0 ho))
  owner_p1 := h.owner_p1

/-- A header that is cleared or that passed its checks is all that the writers of the header must see to. -/
theorem OffWalk.with_header {s t : State} (h : OffWalk s) (hconfig : t.config = s.config) (harb : t.arb = s.arb)
    (hchecked : t.status.hdrValid = true → t.hdr.planesBpp.extractLsb' 0 16 = 1 ∧ t.hdr.compression = 0)
    (hzero : t.status.hdrValid = false → t.hdr = .zero) : OffWalk t where
  image := by rw [hconfig]; exact h.image
  header_checked := hchecked
  header_zero := hzero
  no_request := by rw [harb]; exact h.no_request
  owner_not_p0 := by rw [harb]; exact h.owner_not_p0
  owner_p1 := by rw [harb]; exact h.owner_p1

theorem OffWalk.congr {s t : State} (h : OffWalk s)
    (he : (t.config, t.arb, t.status.hdrValid, t.hdr) = (s.config, s.arb, s.status.hdrValid, s.hdr)) : OffWalk t := by
  simp only [Prod.mk.injEq] at he
  obtain ⟨hconfig, harb, hvalid, hhdr⟩ := he
  refine h.with_header hconfig harb ?_ ?_ <;> rw [hvalid, hhdr]
  exacts [h.header_checked, h.header_zero]

/-- An idle machine meets the invariant once its outcome does. -/
theorem OffWalk.inv_idle {s : State} (h : OffWalk s) (hf : s.fsm = .idle) (hb : s.status.busy = false)
    (he : ErrInv s) : Inv s where
  image := h.image
  idle_iff := by simp only [hf, hb]
  busy_clear := by rw [hb]; nofun
  err := he
  header_checked := h.header_checked
  header_zero := h.header_zero
  parse_invalid := by rw [hf]; nofun
  parse_op := by rw [hf]; nofun
  parse_count := by rw [hf]; nofun
  check_count := by rw [hf]; nofun
  check_op := by rw [hf]; nofun
  walk_op := by rw [hf]; nofun
  conv_op := by rw [hf]; nofun
  request_iff := by simp only [h.no_request, hf, Bool.false_eq_true, reduceCtorEq]
  owner_p0 ho := absurd ho h.owner_not_p0
  owner_p1 := h.owner_p1
  walk := by rw [hf]; nofun

/-- The flags and ERR_INFO of a running command: as its acceptance left them (R227). -/
structure Running (s : State) : Prop where
  busy : s.status.busy = true
  done : s.status.done = false
  err : s.status.err = .none
  cause : s.status.cause = .none
  info : s.errInfo = 0

theorem Inv.running {s : State} (h : Inv s) (hf : s.fsm ≠ .idle) : Running s := by
  have hbusy : s.status.busy = true := by rwa [← Bool.not_eq_false, ← h.idle_iff.not]
  obtain ⟨hdone, herr⟩ := h.busy_clear hbusy
  exact { busy := hbusy, done := hdone, err := herr, cause := h.err.cause_none (by rw [herr]; nofun),
          info := h.err.info_none herr }

/-- No error, no cause and no word for it (R29, R30, R48). -/
theorem ErrInv.of_none {s : State} (herr : s.status.err = .none) (hcause : s.status.cause = .none)
    (hinfo : s.errInfo = 0) : ErrInv s := by
  constructor <;> simp [herr, hcause, hinfo]

/-- A command that runs but does not walk meets the invariant once its own part of it does. -/
theorem OffWalk.inv_running {s : State} (h : OffWalk s) (hr : Running s) (hidle : s.fsm ≠ .idle)
    (hwalk : s.fsm ≠ .blitPix)
    (hparse : s.fsm = .parse → s.status.hdrValid = false ∧ (s.status.lastOp = if s.thenBlit then 3 else 1) ∧
      (s.thenBlit = true → s.pixCount = 0))
    (hcheck : s.fsm = .blitCheck → s.pixCount = 0 ∧
      (s.status.lastOp = 2 ∨ (s.status.lastOp = 3 ∧ s.status.hdrValid = true)))
    (hconv : s.fsm = .conv → s.status.lastOp = 4) : Inv s where
  image := h.image
  idle_iff := by simp only [hidle, hr.busy, Bool.true_eq_false]
  busy_clear _ := ⟨hr.done, hr.err⟩
  err := .of_none hr.err hr.cause hr.info
  header_checked := h.header_checked
  header_zero := h.header_zero
  parse_invalid hf := (hparse hf).1
  parse_op hf := by
    obtain ⟨-, hop, -⟩ := hparse hf
    exact hop
  parse_count hf := by
    obtain ⟨-, -, hcount⟩ := hparse hf
    exact hcount
  check_count hf := (hcheck hf).1
  check_op hf := (hcheck hf).2
  walk_op hf := absurd hf hwalk
  conv_op := hconv
  request_iff := by simp only [h.no_request, hwalk, Bool.false_eq_true]
  owner_p0 ho := absurd ho h.owner_not_p0
  owner_p1 := h.owner_p1
  walk hf := absurd hf hwalk

/-! ### Launch, reset and the end of a command -/

/-- Right after launch with a canonical image the invariant holds (R271). -/
theorem launch_inv {c : Config} (h : c.wf = true) : Inv (State.launch c) :=
  have off : OffWalk (State.launch c) :=
    { image := h, header_checked := nofun, header_zero := fun _ => rfl, no_request := rfl, owner_not_p0 := nofun,
      owner_p1 := nofun }
  off.inv_idle rfl rfl (.of_none rfl rfl rfl)

theorem resetBlock_inv {s : State} (h : Inv s) : Inv (resetBlock s) := (launch_inv h.image).congr rfl rfl rfl

/-- A finish keeps the invariant if the outcome it reports meets the rules of ERR, CAUSE and ERR_INFO (R232). -/
theorem OffWalk.inv_finish {s : State} (h : OffWalk s) {err : ErrCode} {cause : Cause} {info : Word}
    (he : ErrInv (finish err cause info s)) : Inv (finish err cause info s) :=
  (h.congr rfl : OffWalk (finish err cause info s)).inv_idle rfl rfl he

theorem OffWalk.inv_success {s : State} (h : OffWalk s) : Inv (finish .none .none 0 s) :=
  h.inv_finish (.of_none rfl rfl rfl)

/-! ### The errors a step can leave -/

/-- A saturated byte count is past the image wherever the count is (R242). -/
theorem satWord_past {m : Memory} {k : Nat} (h : imgLen m < k) :
    imgLen m < u32 (satWord k) ∨ satWord k = 0xFFFFFFFF := by
  by_cases hk : k < 0xFFFFFFFF
  · left
    rw [satWord_small (by omega), u32, BitVec.toNat_ofNat, Nat.mod_eq_of_lt (by omega)]
    exact h
  · right
    rw [satWord, Nat.min_eq_right (by omega)]
    rfl

theorem errInv_truncated {s : State} {k : Nat} (hk : imgLen s.config.img < k)
    (hop : s.status.lastOp = 1 ∨ s.status.lastOp = 2 ∨ s.status.lastOp = 3) :
    ErrInv (finish .truncatedData .none (satWord k) s) where
  cause_none _ := rfl
  info_none := nofun
  info_format := nofun
  info_truncated _ := satWord_past hk
  info_noHeader := nofun
  info_illegal := nofun
  op_format := nofun
  op_truncated _ := hop
  op_noHeader := nofun
  done_of_err _ := rfl

theorem errInv_noHeader {s : State} (hop : s.status.lastOp = 2) : ErrInv (finish .noHeader .none 0 s) where
  cause_none _ := rfl
  info_none := nofun
  info_format := nofun
  info_truncated := nofun
  info_noHeader _ := rfl
  info_illegal := nofun
  op_format := nofun
  op_truncated := nofun
  op_noHeader _ := hop
  done_of_err _ := rfl

theorem errInv_invalidFormat {s : State} {cause : Cause} {offset : Word}
    (hc : (cause = .magic ∧ offset = 0) ∨ (cause = .planes ∧ offset = 26) ∨ (cause = .compression ∧ offset = 30))
    (hop : s.status.lastOp = 1 ∨ s.status.lastOp = 3) : ErrInv (finish .invalidFormat cause offset s) where
  cause_none hne := absurd rfl hne
  info_none := nofun
  info_format _ := hc
  info_truncated := nofun
  info_noHeader := nofun
  info_illegal := nofun
  op_format _ := hop
  op_truncated := nofun
  op_noHeader := nofun
  done_of_err _ := rfl

theorem errInv_illegal {s : State} {word : Word} (hw : wordLegal word = false) : ErrInv (refuseIllegal word s) where
  cause_none _ := rfl
  info_none := nofun
  info_format := nofun
  info_truncated := nofun
  info_noHeader := nofun
  info_illegal _ := ⟨hw, rfl⟩
  op_format := nofun
  op_truncated := nofun
  op_noHeader := nofun
  done_of_err _ := rfl

/-! ### The commands' acceptance and the steps off the walk -/

/-- An illegal word keeps the invariant of an idle machine (R225). -/
theorem refuseIllegal_inv {s : State} (h : Inv s) (hb : s.status.busy = false) {word : Word}
    (hw : wordLegal word = false) : Inv (refuseIllegal word s) := by
  have hidle : s.fsm = .idle := h.idle_iff.2 hb
  have off : OffWalk (refuseIllegal word s) := (h.offWalk (by rw [hidle]; nofun)).congr rfl
  exact off.inv_idle hidle hb (errInv_illegal hw)

/-- Every command's acceptance keeps the invariant of an idle machine (R131, R150, R151, R183). -/
theorem accepted_inv {s : State} (h : Inv s) (hb : s.status.busy = false) (i : Instr) : Inv (accepted i s) := by
  have hidle : s.fsm = .idle := h.idle_iff.2 hb
  have off : OffWalk s := h.offWalk (by rw [hidle]; nofun)
  cases i with
  | nop => exact h
  | parse =>
    exact (off.with_header rfl rfl nofun fun _ => rfl : OffWalk (accepted .parse s)).inv_running
      ⟨rfl, rfl, rfl, rfl, rfl⟩ nofun nofun (fun _ => ⟨rfl, rfl, nofun⟩) nofun nofun
  | blit =>
    exact (off.congr rfl : OffWalk (accepted .blit s)).inv_running
      ⟨rfl, rfl, rfl, rfl, rfl⟩ nofun nofun nofun (fun _ => ⟨rfl, .inl rfl⟩) nofun
  | decodeBlit =>
    exact (off.with_header rfl rfl nofun fun _ => rfl : OffWalk (accepted .decodeBlit s)).inv_running
      ⟨rfl, rfl, rfl, rfl, rfl⟩ nofun nofun (fun _ => ⟨rfl, rfl, fun _ => rfl⟩) nofun nofun
  | convert =>
    exact (off.congr rfl : OffWalk (accepted .convert s)).inv_running
      ⟨rfl, rfl, rfl, rfl, rfl⟩ nofun nofun nofun nofun (fun _ => rfl)

/-- A parse that succeeds keeps the invariant: the header passed the checks that leave a trace (R27, R138). -/
theorem commit_inv {s : State} (h : Inv s) (hf : s.fsm = .parse) {hd : Header}
    (hp : parseHeader s.config.img = .ok hd) : Inv (commit hd s) := by
  obtain ⟨-, -, hplanes, hcompression⟩ := parseHeader_ok hp
  have off : OffWalk s := h.offWalk (by rw [hf]; nofun)
  have run : Running s := h.running (by rw [hf]; nofun)
  rcases commit_cases hd s with ⟨hthen, he⟩ | ⟨-, he⟩ <;> rw [he]
  · have hop : s.status.lastOp = 3 := by rw [h.parse_op hf, hthen]; rfl
    have off' : OffWalk { s with hdr := hd, status := { s.status with hdrValid := true }, fsm := .blitCheck } :=
      off.with_header rfl rfl (fun _ => ⟨hplanes, hcompression⟩) nofun
    exact off'.inv_running ⟨run.busy, run.done, run.err, run.cause, run.info⟩ nofun nofun nofun
      (fun _ => ⟨h.parse_count hf hthen, .inr ⟨hop, rfl⟩⟩) nofun
  · have off' : OffWalk { s with hdr := hd, status := { s.status with hdrValid := true } } :=
      off.with_header rfl rfl (fun _ => ⟨hplanes, hcompression⟩) nofun
    exact off'.inv_success

/-- A parse that fails keeps the invariant (R133 to R137, R139). -/
theorem parseRaised_inv {s : State} (h : Inv s) (hf : s.fsm = .parse) {r : Raise}
    (hp : parseHeader s.config.img = .error r) : Inv (raise r s) := by
  have off : OffWalk s := h.offWalk (by rw [hf]; nofun)
  have hop : s.status.lastOp = 1 ∨ s.status.lastOp = 3 := by
    rw [h.parse_op hf]
    cases s.thenBlit
    · exact .inl rfl
    · exact .inr rfl
  refine off.inv_finish ?_
  rcases parseHeader_error hp with rfl | rfl | rfl | ⟨k, hk, -, rfl⟩
  · exact errInv_invalidFormat (.inl ⟨rfl, rfl⟩) hop
  · exact errInv_invalidFormat (.inr (.inl ⟨rfl, rfl⟩)) hop
  · exact errInv_invalidFormat (.inr (.inr ⟨rfl, rfl⟩)) hop
  · exact errInv_truncated hk (hop.imp id .inr)

/-- The header gate keeps the invariant: only a BLIT comes to it with no valid header (R152). -/
theorem noHeader_inv {s : State} (h : Inv s) (hf : s.fsm = .blitCheck) (hv : s.status.hdrValid = false) :
    Inv (finish .noHeader .none 0 s) := by
  refine (h.offWalk (by rw [hf]; nofun)).inv_finish (errInv_noHeader ?_)
  rcases h.check_op hf with hop | ⟨-, hv'⟩
  · exact hop
  · exact nomatch hv.symm.trans hv'

/-- The extent check's error keeps the invariant (R153, R242). -/
theorem tooShort_inv {s : State} (h : Inv s) (hf : s.fsm = .blitCheck) (hx : imgLen s.config.img < rasterEnd s) :
    Inv (finish .truncatedData .none (satWord (rasterEnd s).toNat) s) := by
  refine (h.offWalk (by rw [hf]; nofun)).inv_finish (errInv_truncated (by omega) ?_)
  exact .inr ((h.check_op hf).imp id And.left)

/-- The CONVERT step keeps the invariant (R183). -/
theorem convStep_inv {s : State} (h : Inv s) (hf : s.fsm = .conv) : Inv (convStep s) :=
  ((h.offWalk (by rw [hf]; nofun)).congr rfl :
    OffWalk { s with convOut := pack565 (s.latCin.extractLsb' 16 8) (s.latCin.extractLsb' 8 8)
                                  (s.latCin.extractLsb' 0 8) }).inv_success

/-! ### The walk -/

theorem s32_lt (v : Word) : s32 v < 2147483648 := BitVec.toInt_lt

/-- A walk goes on under the invariant when its new place meets the walk's own part of it. -/
theorem Inv.with_place {s : State} (h : Inv s) (hf : s.fsm = .blitPix) {row col cursor count : Word}
    {hist : List SinkEvent}
    (hw : WalkInv { s with row := row, col := col, cursor := cursor, pixCount := count, hist := hist }) :
    Inv { s with row := row, col := col, cursor := cursor, pixCount := count, hist := hist } where
  image := h.image
  idle_iff := h.idle_iff
  busy_clear := h.busy_clear
  err := h.err.congr rfl
  header_checked := h.header_checked
  header_zero := h.header_zero
  parse_invalid := h.parse_invalid
  parse_op := h.parse_op
  parse_count := fun (hp : s.fsm = .parse) => nomatch hf.symm.trans hp
  check_count := fun (hp : s.fsm = .blitCheck) => nomatch hf.symm.trans hp
  check_op := h.check_op
  walk_op := h.walk_op
  conv_op := h.conv_op
  request_iff := h.request_iff
  owner_p0 := h.owner_p0
  owner_p1 := h.owner_p1
  walk _ := hw

/-- The walk's start: the first pixel is number 0, at the header's offset (R154). -/
theorem startWalk_walkInv {s : State} (hv : s.status.hdrValid = true) (hw : 1 ≤ rasterW s) (hh : 1 ≤ rasterH s)
    (hx : rasterEnd s ≤ imgLen s.config.img) (hcount : s.pixCount = 0) : WalkInv (startWalk s) := by
  have hindex : walkIndex (startWalk s) = 0 := by
    have hrow : s32 (startWalk s).row = rasterH (startWalk s) := rfl
    have hcol : s32 (startWalk s).col = 0 := rfl
    rw [walkIndex, hrow, hcol, Int.sub_self, Int.zero_mul, Int.add_zero]
  exact { valid := hv, width_pos := hw, height_pos := hh, fits := hx, row_pos := hh, row_le := Int.le_refl _,
          col_nonneg := Int.le_refl _, col_lt := hw, cursor_eq := by rw [hindex]; rfl,
          count_eq := by rw [hindex, startWalk_pixCount, hcount]; rfl }

/-- The walk's start keeps the invariant (R154). -/
theorem startWalk_inv {s : State} (h : Inv s) (hf : s.fsm = .blitCheck) (hv : s.status.hdrValid = true)
    (hw : 1 ≤ rasterW s) (hh : 1 ≤ rasterH s) (hx : rasterEnd s ≤ imgLen s.config.img) : Inv (startWalk s) :=
  have off : OffWalk s := h.offWalk (by rw [hf]; nofun)
  have run : Running s := h.running (by rw [hf]; nofun)
  { image := h.image
    idle_iff := by simp only [startWalk_fsm, startWalk_status, run.busy, reduceCtorEq]
    busy_clear := h.busy_clear
    err := h.err.congr rfl
    header_checked := h.header_checked
    header_zero := h.header_zero
    parse_invalid := nofun
    parse_op := nofun
    parse_count := nofun
    check_count := nofun
    check_op := nofun
    walk_op := fun _ => (h.check_op hf).imp id And.left
    conv_op := nofun
    request_iff := by simp only [startWalk_arb, startWalk_fsm]
    owner_p0 := fun _ => rfl
    owner_p1 := off.owner_p1
    walk := fun _ => startWalk_walkInv hv hw hh hx (h.check_count hf) }

section Walk

variable {s : State} (h : WalkInv s)
include h

/-- The next pixel is one of the raster's (R156). -/
theorem WalkInv.index_lt : walkIndex s + 1 ≤ rasterW s * rasterH s := by
  have hlines : (rasterH s - s32 s.row) * rasterW s ≤ (rasterH s - 1) * rasterW s :=
    Int.mul_le_mul_of_nonneg_right (by linarith [h.row_pos]) (by linarith [h.width_pos])
  have harea : (rasterH s - 1) * rasterW s + rasterW s = rasterW s * rasterH s := by ring
  have hcol := h.col_lt
  unfold walkIndex
  omega

/-- The next pixel's bytes are in the image, so its read does not overrun (R153, R157). -/
theorem WalkInv.read_fits : u32 s.cursor + 3 ≤ imgLen s.config.img := by
  have hindex := h.index_lt
  have hcursor := h.cursor_eq
  have hfits := h.fits
  rw [rasterEnd, Int.mul_assoc] at hfits
  omega

theorem WalkInv.cursor_succ : u32 (s.cursor + 3) = u32 s.cursor + 3 := by
  have hfits := h.read_fits
  have hlen : imgLen s.config.img < 2 ^ 32 := s.config.img.len.isLt
  exact BitVec.toNat_add_of_lt (y := 3) (Nat.lt_of_le_of_lt hfits hlen)

theorem WalkInv.count_succ : u32 (s.pixCount + 1) = u32 s.pixCount + 1 := by
  have hfits := h.read_fits
  have hcursor := h.cursor_eq
  have hcount := h.count_eq
  have hlen : imgLen s.config.img < 2 ^ 32 := s.config.img.len.isLt
  have hbound : u32 s.pixCount + 1 < 2 ^ 32 := by omega
  exact BitVec.toNat_add_of_lt (y := 1) hbound

/-- After a pixel the walk stands at the place of the next number (R157). -/
theorem WalkInv.next_place (ev : SinkEvent) {row col : Word} (hrow : 1 ≤ s32 row) (hrow_le : s32 row ≤ rasterH s)
    (hcol : 0 ≤ s32 col) (hcol_lt : s32 col < rasterW s)
    (hindex : (rasterH s - s32 row) * rasterW s + s32 col = walkIndex s + 1) :
    WalkInv { pixelSent ev s with row := row, col := col } where
  valid := h.valid
  width_pos := h.width_pos
  height_pos := h.height_pos
  fits := h.fits
  row_pos := hrow
  row_le := hrow_le
  col_nonneg := hcol
  col_lt := hcol_lt
  cursor_eq := by
    have hnext : (u32 (s.cursor + 3) : Int) = u32 s.hdr.pixelOffset + 3 * (walkIndex s + 1) := by
      rw [h.cursor_succ]
      push_cast
      linarith [h.cursor_eq]
    rw [← hindex] at hnext
    exact hnext
  count_eq := by
    have hnext : (u32 (s.pixCount + 1) : Int) = walkIndex s + 1 := by
      rw [h.count_succ]
      push_cast
      linarith [h.count_eq]
    rw [← hindex] at hnext
    exact hnext

/-- The next column of the line (R157). -/
theorem WalkInv.next_column (ev : SinkEvent) (hlt : s32 s.col + 1 < rasterW s) :
    WalkInv { pixelSent ev s with col := wrap32 (s32 s.col + 1) } := by
  have hmax : rasterW s < 2147483648 := s32_lt s.hdr.width
  have hnonneg := h.col_nonneg
  have hcol : s32 (wrap32 (s32 s.col + 1)) = s32 s.col + 1 := s32_wrap32 (by omega) (by omega)
  exact h.next_place ev (row := s.row) h.row_pos h.row_le (by omega) (by omega)
    (by rw [hcol, walkIndex, Int.add_assoc])

/-- The first column of the next line (R157). -/
theorem WalkInv.next_line (ev : SinkEvent) (hend : rasterW s ≤ s32 s.col + 1) (hrow : 1 < s32 s.row) :
    WalkInv { pixelSent ev s with col := 0, row := wrap32 (s32 s.row - 1) } := by
  have hmax : s32 s.row < 2147483648 := s32_lt s.row
  have hle := h.row_le
  have hwidth : rasterW s = s32 s.col + 1 := by linarith [h.col_lt]
  have hpos := h.width_pos
  have hnext : s32 (wrap32 (s32 s.row - 1)) = s32 s.row - 1 := s32_wrap32 (by omega) (by omega)
  have hzero : s32 0 = 0 := rfl
  refine h.next_place ev (by omega) (by omega) (by omega) (by omega) ?_
  rw [hnext, hzero, walkIndex]
  linear_combination hwidth

end Walk

/-- The walk's end keeps the invariant (R160). -/
theorem walkEnd_inv {s : State} (h : Inv s) {t : State} (hconfig : t.config = s.config)
    (hvalid : t.status.hdrValid = s.status.hdrValid) (hhdr : t.hdr = s.hdr) : Inv (walkEnd t) := by
  have off : OffWalk (releaseP0 t) :=
    { image := by rw [releaseP0_config, hconfig]; exact h.image
      header_checked := by rw [releaseP0_status, releaseP0_hdr, hvalid, hhdr]; exact h.header_checked
      header_zero := by rw [releaseP0_status, releaseP0_hdr, hvalid, hhdr]; exact h.header_zero
      no_request := rfl
      owner_not_p0 := nofun
      owner_p1 := nofun }
  exact off.inv_success

/-- A pixel step keeps the invariant, at the next column, at the next line and at the walk's end (R157). -/
theorem writePixel_inv {s : State} (h : Inv s) (hf : s.fsm = .blitPix) (b g r : Byte) : Inv (writePixel b g r s) := by
  have hwalk : WalkInv s := h.walk hf
  rw [writePixel_eq]
  generalize SinkEvent.pix .p0 (xcoord s) (ycoord s) (pack565 r g b) = ev
  rcases advance_cases (pixelSent ev s) with ⟨hlt, he⟩ | ⟨hend, hrow, he⟩ | ⟨-, -, he⟩ <;> rw [he]
  · exact h.with_place hf (hwalk.next_column ev hlt)
  · exact h.with_place hf (hwalk.next_line ev hend hrow)
  · exact walkEnd_inv h rfl rfl rfl

/-! ### The step -/

/-- The ENGINE's step keeps the invariant. -/
theorem EngineEffect.inv {ready : Bool} {s t : State} (e : EngineEffect ready s t) (h : Inv s) : Inv t := by
  cases e with
  | hold => exact h
  | parsed hf hp => exact commit_inv h hf hp
  | parseRaised r hf hp => exact parseRaised_inv h hf hp
  | noHeader hf hv => exact noHeader_inv h hf hv
  | emptyWalk hf => exact (h.offWalk (by rw [hf]; nofun)).inv_success
  | tooShort hf _ _ _ hx => exact tooShort_inv h hf hx
  | walkStarted hf hv hw hh hx => exact startWalk_inv h hf hv hw hh hx
  | pixel hf => exact writePixel_inv h hf _ _ _
  | pixelOverran hf _ _ hc => exact absurd (h.walk hf).read_fits (Nat.not_le.2 hc)
  | converted hf => exact convStep_inv h hf

/-- Every turn keeps the invariant. -/
theorem TurnEffect.inv {ready : Bool} {a : Action} {s t : State} (e : TurnEffect ready a s t) (h : Inv s) : Inv t := by
  cases e with
  | hold => exact h
  | engine _ _ he => exact he.inv h
  | grant p _ _ hp =>
    rcases hp with ⟨rfl, hreq⟩ | ⟨rfl, hreq⟩
    · exact h.with_arb rfl (fun _ => hreq) nofun
    · exact h.with_arb rfl nofun (fun _ => hreq)
  | requested => exact h.with_arb rfl h.owner_p0 (fun _ => rfl)
  | released => exact h.with_arb rfl nofun nofun
  | illegal word _ hw hb => exact refuseIllegal_inv h hb hw
  | accepted i _ _ hb => exact accepted_inv h hb i
  | reset => exact resetBlock_inv h
  | finished | read | writeX | writeY | writeConv | dropped | sent => exact h.congr rfl rfl rfl

/-- Settles O49, by the cases of the turn taken: the model's own fields, which the taking of a turn writes, are none
that the invariant reads. -/
theorem everyStepKeepsTheInvariant : Obligations.EveryStepKeepsTheInvariant := by
  intro s t h hstep
  obtain ⟨_, _, e⟩ := step_effect_from hstep
  exact e.inv (h.congr rfl rfl rfl)

end Sys2Proof.Machine
end

section
/-! PROOFS. The image's form (spec/20_memory.md R60): a canonical list of cells is determined by its bytes, and the one
built from a list of bytes has those bytes. -/

namespace Sys2Proof.Machine

theorem cellsWf_cons {len lo : Nat} {c : Host.Cell} {rest : List Host.Cell} :
    cellsWf len lo (c :: rest) = true ↔
      lo ≤ c.1 ∧ c.1 < len ∧ c.2 ≠ 0 ∧ cellsWf len (c.1 + 1) rest = true := by
  simp [cellsWf, and_assoc]

theorem cellAt_cons_self (c : Host.Cell) (rest : List Host.Cell) : cellAt (c :: rest) c.1 = c.2 := if_pos rfl

theorem cellAt_cons_of_ne {c : Host.Cell} {a : Nat} (h : c.1 ≠ a) (rest : List Host.Cell) :
    cellAt (c :: rest) a = cellAt rest a := if_neg h

/-- Below its first listed address a canonical list reads as 0. -/
theorem cellAt_below {len lo a : Nat} {cs : List Host.Cell} (hw : cellsWf len lo cs = true) (ha : a < lo) :
    cellAt cs a = 0 := by
  induction cs generalizing lo with
  | nil => rfl
  | cons c rest ih =>
    obtain ⟨hlo, -, -, hrest⟩ := cellsWf_cons.1 hw
    rw [cellAt_cons_of_ne (by omega)]
    exact ih hrest (by omega)

/-- A canonical list starts at the first address whose byte is not 0. -/
theorem head_le_of_cellAt_ne_zero {len lo a : Nat} {c : Host.Cell} {rest : List Host.Cell}
    (hw : cellsWf len lo (c :: rest) = true) (h : cellAt (c :: rest) a ≠ 0) : c.1 ≤ a := by
  obtain ⟨-, hlt, hne, hrest⟩ := cellsWf_cons.1 hw
  by_contra hlow
  exact h (cellAt_below (cellsWf_cons.2 ⟨Nat.le_refl c.1, hlt, hne, hrest⟩) (by omega))

/-- A canonical list's tail has the list's bytes, but for the head's address. -/
theorem cellAt_tail {len lo : Nat} {c : Host.Cell} {rest : List Host.Cell} (hw : cellsWf len lo (c :: rest) = true)
    (a : Nat) : cellAt rest a = if c.1 = a then 0 else cellAt (c :: rest) a := by
  obtain ⟨-, -, -, hrest⟩ := cellsWf_cons.1 hw
  split
  · exact cellAt_below hrest (by omega)
  · rw [cellAt_cons_of_ne ‹_›]

/-- Canonical lists with the same bytes are equal: they agree in the head, the first byte that is not 0, and so in the
tail. -/
theorem cells_eq_of_cellAt_eq {len len' lo lo' : Nat} {cs cs' : List Host.Cell} (hw : cellsWf len lo cs = true)
    (hw' : cellsWf len' lo' cs' = true) (h : ∀ a, cellAt cs a = cellAt cs' a) : cs = cs' := by
  induction cs generalizing lo lo' cs' with
  | nil =>
    cases cs' with
    | nil => rfl
    | cons c' rest' =>
      obtain ⟨-, -, hne', -⟩ := cellsWf_cons.1 hw'
      exact absurd ((cellAt_cons_self c' rest').symm.trans (h c'.1).symm) hne'
  | cons c rest ih =>
    obtain ⟨-, -, hne, hrest⟩ := cellsWf_cons.1 hw
    have hhead : cellAt cs' c.1 = c.2 := (h c.1).symm.trans (cellAt_cons_self c rest)
    cases cs' with
    | nil => exact absurd hhead.symm hne
    | cons c' rest' =>
      obtain ⟨-, -, hne', hrest'⟩ := cellsWf_cons.1 hw'
      have hhead' : cellAt (c :: rest) c'.1 = c'.2 := (h c'.1).trans (cellAt_cons_self c' rest')
      have haddr : c.1 = c'.1 := Nat.le_antisymm
        (head_le_of_cellAt_ne_zero hw (by rwa [hhead'])) (head_le_of_cellAt_ne_zero hw' (by rwa [hhead]))
      have hcell : c = c' := Prod.ext haddr (by rw [← hhead, haddr, cellAt_cons_self])
      have htail : rest = rest' :=
        ih hrest hrest' fun a => by rw [cellAt_tail hw, cellAt_tail hw', h a, haddr]
      rw [hcell, htail]

/-- The listed form leaves out a byte 0, and reads as 0 there all the same. -/
theorem cellAt_cellsFrom_cons (a k : Nat) (b : Byte) (bs : List Byte) :
    cellAt (cellsFrom a (b :: bs)) k = if a = k then b else cellAt (cellsFrom (a + 1) bs) k := by
  by_cases hb : b = 0
  · have hskip : cellsFrom a (b :: bs) = cellsFrom (a + 1) bs := if_pos hb
    rw [hskip]
    split
    · rw [hb]
      exact cellAt_below (cellsFrom_wf bs (a + 1) _ (Nat.le_refl _)) (by omega)
    · rfl
  · have hlist : cellsFrom a (b :: bs) = (a, b) :: cellsFrom (a + 1) bs := if_neg hb
    rw [hlist]
    rfl

theorem cellAt_cellsFrom (bs : List Byte) (a i : Nat) : cellAt (cellsFrom a bs) (a + i) = bs.getD i 0 := by
  induction bs generalizing a i with
  | nil => rfl
  | cons b bs ih =>
    rw [cellAt_cellsFrom_cons]
    cases i with
    | zero => rw [Nat.add_zero, if_pos rfl, List.getD_cons_zero]
    | succ i => rw [if_neg (by omega), List.getD_cons_succ, ← ih (a + 1) i, Nat.add_right_comm, Nat.add_assoc]

/-- Settles O59: the listed form starts at address 0, so its byte at `a` is the list's. -/
theorem imageHoldsItsBytes : Obligations.ImageHoldsItsBytes := by
  intro bs hlen
  refine ⟨Nat.mod_eq_of_lt hlen, fun a => ?_⟩
  calc imgByte (imageOf bs) a
      = cellAt (cellsFrom 0 bs) (0 + a) := by rw [Nat.zero_add]; rfl
    _ = bs.getD a 0 := cellAt_cellsFrom bs 0 a

/-- Settles O60: the lengths are equal, and the bytes determine the list of cells. -/
theorem canonicalImagesAreEqualData : Obligations.CanonicalImagesAreEqualData := by
  rintro ⟨len, cells⟩ ⟨len', cells'⟩ hw hw' hlen hbytes
  have hcells : cells = cells' := cells_eq_of_cellAt_eq hw hw' hbytes
  rw [Memory.mk.injEq]
  exact ⟨hlen, hcells⟩

end Sys2Proof.Machine
end

section
/-! PROOFS. The end of a run (spec/44_command_control.md R233): what the STATUS word says of it, and what can still
change once a run has ended. -/

namespace Sys2Proof.Machine

/-! ### The window -/

/-- Bit 0 of STATUS is BUSY (R24, R231): every other field is shifted above it. -/
theorem statusWord_bit0 (s : State) : (statusWord s).getLsbD 0 = s.status.busy := by
  simp [statusWord, flagAt]

/-- STATUS stands at word index 1 only (R22). -/
theorem eq_one_of_regAt_status {w : BitVec 6} (h : regAt w = some .status) : w = 1 := by
  revert w; decide

/-- Of the window only STATUS shows the arbiter, and nothing in it shows HIST or the turns to come (R22, R231). -/
theorem readWindow_arb_hist_turns {w : BitVec 6} (hw : w ≠ 1) (s : State) (arb : Arbiter) (hist : List SinkEvent)
    (turns : List Turn) (draws : Nat) :
    readWindow w { s with arb := arb, hist := hist, turns := turns, draws := draws } = readWindow w s := by
  unfold readWindow
  split
  next r hr =>
    cases r with
    | status => exact absurd (eq_one_of_regAt_status hr) hw
    | _ => rfl
  next => rfl

/-! ### The turn an ended run takes -/

/-- Taking a turn leaves the HOST finished: of what is laid down it only uses up the first. -/
theorem hostFinished_takeTurn {s : State} (h : hostFinished s) : hostFinished (takeTurn s).2 := by
  obtain ⟨hdone, hturns⟩ := h
  unfold takeTurn
  split
  next t rest hcons =>
    rw [hcons, List.all_cons, Bool.and_eq_true] at hturns
    exact ⟨hdone, hturns.2⟩
  next => exact ⟨hdone, hturns⟩

theorem runEnded_takeTurn {s : State} (h : runEnded s) : runEnded (takeTurn s).2 := by
  obtain ⟨hidle, hreq, howner, hhost⟩ := h
  have hfinished := hostFinished_takeTurn hhost
  obtain ⟨ts, n, hu⟩ := takeTurn_state s
  rw [hu] at hfinished ⊢
  exact ⟨hidle, hreq, howner, hfinished⟩

/-- A turn that is no HOST access resets an ended run, or writes no register of the block but the arbiter's, where P0
still neither asks for nor owns the sink. -/
theorem TurnEffect.ended_cases {ready : Bool} {a : Action} {u t : State} (e : TurnEffect ready a u t)
    (h : runEnded u) (hhost : ∀ access, a ≠ .host access) :
    (a = .reset ∧ t = resetBlock u) ∨
      (t = { u with arb := t.arb, hist := t.hist } ∧ t.arb.reqP0 = false ∧ t.arb.owner ≠ some .p0) := by
  obtain ⟨hidle, hreq, howner, hdone, -⟩ := h
  cases e with
  | reset ha => exact .inl ⟨ha, rfl⟩
  | engine _ _ he =>
    cases he with
    | hold => exact .inr ⟨rfl, hreq, howner⟩
    | parsed hf | parseRaised _ hf | noHeader hf | emptyWalk hf | tooShort hf | walkStarted hf | pixel hf
    | pixelOverran hf | converted hf => exact nomatch hidle.symm.trans hf
  | grant p _ _ hp =>
    rcases hp with ⟨-, hp0⟩ | ⟨rfl, -⟩
    · exact nomatch hreq.symm.trans hp0
    · exact .inr ⟨rfl, hreq, nofun⟩
  | finished => exact .inr ⟨by rw [← hdone], hreq, howner⟩
  | hold | requested | sent => exact .inr ⟨rfl, hreq, howner⟩
  | released => exact .inr ⟨rfl, hreq, nofun⟩
  | read _ ha | writeX _ ha | writeY _ ha | writeConv _ ha | dropped _ ha | illegal _ ha | accepted _ ha =>
    exact absurd ha (hhost _)

theorem action_ne_host {tn : Turn} (h : isHostTurn tn = false) (access : HostAccess) : tn.action ≠ .host access := by
  intro ha
  simp [isHostTurn, ha] at h

/-- Reset leaves the block idle and the sink free, and it makes no HOST access (R271). -/
theorem runEnded_resetBlock {u : State} (h : hostFinished u) : runEnded (resetBlock u) := ⟨rfl, rfl, nofun, h⟩

/-- A step of an ended run leaves it ended, and but for reset it leaves the window but STATUS as it was (R233). -/
theorem runEnded_step {s t : State} (h : runEnded s) (hstep : step s = .next t) :
    runEnded t ∧ ((nextTurn s).action ≠ .reset → ∀ w : BitVec 6, w ≠ 1 → readWindow w t = readWindow w s) := by
  have ⟨_, _, _, hhost⟩ := h
  have hended : runEnded (takeTurn s).2 := runEnded_takeTurn h
  have ⟨hidle, _, _, hhost'⟩ := hended
  rcases (step_effect hstep).ended_cases hended (action_ne_host (nextTurn_not_host hhost)) with
    ⟨hreset, rfl⟩ | ⟨ht, hreq, howner⟩
  · exact ⟨runEnded_resetBlock hhost', absurd hreset⟩
  · refine ⟨⟨?_, hreq, howner, ?_⟩, fun _ w hw => ?_⟩
    · rw [ht]; exact hidle
    · rw [ht]; exact hhost'
    · obtain ⟨ts, n, hu⟩ := takeTurn_state s
      rw [ht, hu]
      exact readWindow_arb_hist_turns hw s _ _ ts n

/-! ### The STATUS word -/

/-- BUSY = 0 leaves the ENGINE idle, with no request of P0 and no grant to it (R52, R197). -/
theorem Inv.engine_done {s : State} (h : Inv s) (hb : s.status.busy = false) :
    s.fsm = .idle ∧ s.arb.reqP0 = false ∧ s.arb.owner ≠ some .p0 := by
  have hidle : s.fsm = .idle := h.idle_iff.2 hb
  have hreq : s.arb.reqP0 = false := by
    rw [Bool.eq_false_iff, ne_eq, h.request_iff, hidle]
    nofun
  exact ⟨hidle, hreq, fun ho => nomatch hreq.symm.trans (h.owner_p0 ho)⟩

/-- Settles O57: BUSY = 0 gives every part of R233 but the HOST's, and the step lemma keeps all of it. -/
theorem idleStatusMeansTheRunEnded : Obligations.IdleStatusMeansTheRunEnded := by
  refine ⟨fun s hinv hbit => ?_, fun s t => runEnded_step⟩
  obtain ⟨hidle, hreq, howner⟩ := hinv.engine_done ((statusWord_bit0 s).symm.trans hbit)
  exact ⟨hidle, hreq, howner, fun ⟨_, _, _, hhost⟩ => hhost, fun hhost => ⟨hidle, hreq, howner, hhost⟩⟩

end Sys2Proof.Machine
end

section
/-! PROOFS. The command word (spec/30_encoding.md R95 to R98): decode and encode are inverse to each other, and the
words that are no command are the illegal ones; and the word indices of the window (R102). -/

namespace Sys2Proof.Machine

/-! ### Decode and encode -/

/-- The per-command facts of the family RoundTrip, for every command. -/
theorem roundTrip (i : Instr) : Laws.RoundTrip.Statement i := by
  cases i with
  | nop => exact Laws.RoundTrip.nop
  | parse => exact Laws.RoundTrip.parse
  | blit => exact Laws.RoundTrip.blit
  | decodeBlit => exact Laws.RoundTrip.decodeBlit
  | convert => exact Laws.RoundTrip.convert

theorem wordLegal_encode (i : Instr) : wordLegal (encode i) = true := by
  obtain ⟨-, hlegal, -⟩ := roundTrip i
  exact hlegal

theorem decode_encode (i : Instr) : decode (encode i) = .ok i := by
  obtain ⟨-, -, hdecode⟩ := roundTrip i
  exact hdecode

/-- A command has one word: the decoder answers it for its encoding and for no other word. -/
theorem decode_eq_ok_iff {word : Word} {i : Instr} : decode word = .ok i ↔ word = encode i := by
  constructor
  · intro h
    rcases decode_cases word with ⟨j, hj, hw⟩ | ⟨e, he, -⟩
    · cases hj.symm.trans h
      exact hw
    · exact nomatch he.symm.trans h
  · rintro rfl
    exact decode_encode i

/-- The decoder's errors are for the words that `wordLegal` refuses. -/
theorem decode_error_iff {word : Word} : (∃ e, decode word = .error e) ↔ wordLegal word = false := by
  rcases decode_cases word with ⟨i, hi, rfl⟩ | ⟨e, he, hl⟩
  · simp [hi, wordLegal_encode]
  · simp [he, hl]

theorem decodeTableWord_toNat {word : Word} {i : Instr} (h : decode word = .ok i) :
    decodeTableWord 32 word.toNat = some i := by
  rw [decodeTableWord, tableWord_toNat, h]

/-- Settles O1: a word is a command's encoding exactly when its number is the table's. -/
theorem decodeReadsExactlyTheTableWords : Obligations.DecodeReadsExactlyTheTableWords := by
  intro word i
  rw [decode_eq_ok_iff, ← BitVec.toNat_inj]
  cases i <;> rfl

/-- Settles O2: `decode_eq_ok_iff`, and the encoding as a table row. -/
theorem decodeAndEncodeAgree : Obligations.DecodeAndEncodeAgree := fun _ i =>
  ⟨decode_eq_ok_iff, decode_encode i, decodeTableWord_toNat (decode_encode i)⟩

/-- Settles O3: the illegal words are those from 5 on, and the two fields say so bit by bit. -/
theorem reservedWordsAreNoCommand : Obligations.ReservedWordsAreNoCommand := by
  intro word
  rw [decode_error_iff, Bool.eq_false_iff, ne_eq, wordLegal_iff]
  omega

/-- Settles O4: the five words are the encodings, and the other two decode by evaluation. -/
theorem sampleWordsDecode : Obligations.SampleWordsDecode :=
  ⟨decode_encode .nop, decode_encode .parse, decode_encode .blit, decode_encode .decodeBlit, decode_encode .convert,
    rfl, rfl⟩

/-- Settles O7: the word 0 is NOP's encoding, so its write to CMD is `exec` of NOP. -/
theorem nopChangesNothing : Obligations.NopChangesNothing := by
  intro s ready
  have hexec : exec .nop s = .next s := rfl
  have hzero : decode 0 = .ok .nop := decode_encode .nop
  exact ⟨hexec, by rw [step_command, hostWriteCmd_of_decode hzero, hexec]⟩

/-! ### The word indices -/

theorem regAt_regIndex (r : Reg) : regAt (regIndex r) = some r := by
  cases r <;> rfl

/-- Of the 64 indices of the window, those from 17 on are reserved (R22, R51). -/
theorem regAt_eq_none_iff (w : BitVec 6) : regAt w = none ↔ 17 ≤ w.toNat := by
  revert w; decide

/-- Settles O18: the indices are read off the table, and `regAt` inverts it. -/
theorem windowIndicesNameTheRegisters : Obligations.WindowIndicesNameTheRegisters :=
  ⟨rfl, rfl, rfl, rfl, rfl, rfl, rfl, rfl, rfl, rfl, rfl, rfl, rfl, rfl, rfl, rfl, rfl, regAt_regIndex,
    regAt_eq_none_iff⟩

end Sys2Proof.Machine
end

section
/-! PROOFS. What the parse step reads (spec/40_header_parse.md R132 to R134): the bytes of the header's fields. -/

namespace Sys2Proof.Machine

/-- Two images with the same bytes in every field of the header: offsets 0 to 33 but for the reserved bytes 6 to 9
(R81, R83). -/
def SameFields (m m' : Memory) : Prop := ∀ a, a < 34 → ¬ (6 ≤ a ∧ a ≤ 9) → imgByte m a = imgByte m' a

theorem SameFields.byte {m m' : Memory} (h : SameFields m m') {a : Nat} (ha : a < 6 ∨ (9 < a ∧ a < 34)) :
    imgByte m a = imgByte m' a := h a (by omega) (by omega)

theorem SameFields.le16_eq {m m' : Memory} (h : SameFields m m') {n : Nat} (hn : n < 5 ∨ (9 < n ∧ n < 33)) :
    le16 (imgByte m n) (imgByte m (n + 1)) = le16 (imgByte m' n) (imgByte m' (n + 1)) := by
  rw [h.byte (by omega), h.byte (by omega)]

theorem SameFields.le32_eq {m m' : Memory} (h : SameFields m m') {n : Nat} (hn : n < 3 ∨ (9 < n ∧ n < 31)) :
    le32 (imgByte m n) (imgByte m (n + 1)) (imgByte m (n + 2)) (imgByte m (n + 3)) =
      le32 (imgByte m' n) (imgByte m' (n + 1)) (imgByte m' (n + 2)) (imgByte m' (n + 3)) := by
  rw [h.byte (by omega), h.byte (by omega), h.byte (by omega), h.byte (by omega)]

/-- The seven reads of R132 are the fields of the header. -/
theorem SameFields.headerOf_eq {m m' : Memory} (h : SameFields m m') : headerOf m = headerOf m' := by
  simp only [headerOf, Header.mk.injEq]
  exact ⟨h.le32_eq (by omega), h.le32_eq (by omega), h.le32_eq (by omega), h.le32_eq (by omega), h.le32_eq (by omega),
    congrArg₂ _ (h.le16_eq (by omega)) (h.le16_eq (by omega)), h.le32_eq (by omega)⟩

/-- The parse of an image that holds the whole header: no read overruns, so the three checks are left (R132 to R136). -/
theorem parseHeader_of_long {m : Memory} (h : 34 ≤ imgLen m) : parseHeader m =
    if (le16 (imgByte m 0) (imgByte m 1) == 0x4D42) = false then .error (invalidFormat .magic 0)
    else if (le16 (imgByte m 26) (imgByte m 27) == 1) = false then .error (invalidFormat .planes 26)
    else if ((headerOf m).compression == 0) = false then .error (invalidFormat .compression 30)
    else .ok (headerOf m) := by
  have fits : ∀ k, k ≤ 34 → ¬ imgLen m < k := fun k hk => by omega
  rw [parseHeader_eq, if_neg (fits 2 (by decide)), if_neg (fits 6 (by decide)), if_neg (fits 14 (by decide)),
    if_neg (fits 18 (by decide)), if_neg (fits 22 (by decide)), if_neg (fits 26 (by decide)),
    if_neg (fits 28 (by decide)), if_neg (fits 30 (by decide)), if_neg (fits 34 (by decide))]
  rfl

theorem SameFields.parseHeader_eq {m m' : Memory} (h : SameFields m m') (hm : 34 ≤ imgLen m)
    (hm' : 34 ≤ imgLen m') : parseHeader m = parseHeader m' := by
  rw [parseHeader_of_long hm, parseHeader_of_long hm', h.headerOf_eq, h.le16_eq (n := 0) (by omega),
    h.le16_eq (n := 26) (by omega)]

/-- Commit reads nothing of the launch parameters. -/
theorem commit_with_config (h : Header) (s : State) (c : Config) :
    commit h { s with config := c } = { commit h s with config := c } := by
  rcases commit_cases h s with ⟨hb, he⟩ | ⟨hb, he⟩
  · rw [he, commit, if_pos hb]
  · rw [he, commit, if_neg (by simp [hb])]
    rfl

/-- The parse step reads of the launch parameters only what the parse answers. -/
theorem parseStep_with_config {s : State} {c : Config} (h : parseHeader c.img = parseHeader s.config.img) :
    parseStep { s with config := c } = { parseStep s with config := c } := by
  simp only [parseStep, h]
  split
  · exact commit_with_config _ s c
  · rfl

theorem step_parse {s : State} (ready : Bool) (h : s.fsm = .parse) :
    step (placeTurn ready .engine s) = .next (parseStep s) := by
  rw [step_engine, engineStep, h]

theorem step_parse_with_config {s : State} {c : Config} (ready : Bool) (hf : s.fsm = .parse)
    (h : parseHeader c.img = parseHeader s.config.img) :
    step (placeTurn ready .engine { s with config := c }) = .next { parseStep s with config := c } := by
  rw [← parseStep_with_config h]
  exact step_parse ready hf

/-- Settles O27: an image that holds the header and has the same fields parses alike, and nothing else of it is read. -/
theorem parseReadsOnlyTheHeaderFields : Obligations.ParseReadsOnlyTheHeaderFields := by
  intro s ready m hfsm hlen hlen' hbytes
  have hsame : SameFields m s.config.img := hbytes
  have hparse : parseHeader m = parseHeader s.config.img := hsame.parseHeader_eq hlen' hlen
  exact ⟨parseStep s, step_parse ready hfsm,
    step_parse_with_config (c := { s.config with img := m }) ready hfsm hparse⟩

end Sys2Proof.Machine
end

section
/-! PROOFS. The script line CONV (spec/30_encoding.md R101): its five steps in one schedule. -/

namespace Sys2Proof.Machine

/-! ### The channels in CONV_IN -/

/-- The word the line CONV writes to CONV_IN (R101). -/
def convWord (r g b : Byte) : Word := (r.setWidth 32 <<< 16) ||| (g.setWidth 32 <<< 8) ||| b.setWidth 32

theorem convWord_toNat (r g b : Byte) :
    (convWord r g b).toNat = 65536 * r.toNat + 256 * g.toNat + b.toNat := by
  have hr := r.isLt
  have hg := g.isLt
  have hb := b.isLt
  have hlow : g.toNat <<< 8 ||| b.toNat = 256 * g.toNat + b.toNat := by
    rw [← Nat.shiftLeft_add_eq_or_of_lt hb, Nat.shiftLeft_eq]; omega
  have hword : (convWord r g b).toNat = r.toNat <<< 16 ||| (256 * g.toNat + b.toNat) := by
    rw [← hlow, ← Nat.lor_assoc]
    simp only [convWord, BitVec.toNat_or, BitVec.toNat_shiftLeft, BitVec.toNat_setWidth, Nat.shiftLeft_eq]
    rw [Nat.mod_eq_of_lt (by omega : r.toNat < 2 ^ 32), Nat.mod_eq_of_lt (by omega : g.toNat < 2 ^ 32),
      Nat.mod_eq_of_lt (by omega : b.toNat < 2 ^ 32), Nat.mod_eq_of_lt (by omega), Nat.mod_eq_of_lt (by omega)]
  rw [hword, ← Nat.shiftLeft_add_eq_or_of_lt (by omega : 256 * g.toNat + b.toNat < 2 ^ 16), Nat.shiftLeft_eq]
  omega

/-- A byte of the 24 bits of CONV_IN, as a number. -/
theorem convIn_byte_toNat (word : Word) (k : Nat) :
    ((word.extractLsb' 0 24).extractLsb' k 8).toNat = word.toNat % 16777216 / 2 ^ k % 256 := by
  simp [BitVec.extractLsb'_toNat, Nat.shiftRight_eq_div_pow]

theorem convWord_red (r g b : Byte) : ((convWord r g b).extractLsb' 0 24).extractLsb' 16 8 = r := by
  rw [← BitVec.toNat_inj, convIn_byte_toNat, convWord_toNat]
  omega

theorem convWord_green (r g b : Byte) : ((convWord r g b).extractLsb' 0 24).extractLsb' 8 8 = g := by
  rw [← BitVec.toNat_inj, convIn_byte_toNat, convWord_toNat]
  omega

theorem convWord_blue (r g b : Byte) : ((convWord r g b).extractLsb' 0 24).extractLsb' 0 8 = b := by
  rw [← BitVec.toNat_inj, convIn_byte_toNat, convWord_toNat]
  omega

theorem expandLine_conv (r g b : Byte) : expandLine 1 (.conv (r.setWidth 32) (g.setWidth 32) (b.setWidth 32)) =
    some [writeReg .convIn (convWord r g b), cmdAccess .convert, readOf .status, readOf .convOut] := rfl

/-! ### The steps of the line -/

/-- The state after a HOST write of `word` to CONV_IN (R38, R221). -/
def setConvIn (word : Word) (s : State) : State := { s with convIn := word.extractLsb' 0 24 }

theorem exec_idle {s : State} (h : s.status.busy = false) (i : Instr) : exec i s = .next (accepted i s) := by
  rcases exec_cases i s with ⟨rfl, he⟩ | ⟨-, hb, -⟩ | ⟨-, -, he⟩
  · exact he
  · exact nomatch h.symm.trans hb
  · exact he

theorem readWindow_regIndex (r : Reg) (s : State) : readWindow (regIndex r) s = readReg r s := by
  simp only [readWindow, regAt_regIndex]

theorem hostRead_regIndex_replies (r : Reg) (s : State) :
    (hostRead (regIndex r) s).replies = s.replies ++ [{ w := regIndex r, value := readReg r s }] := by
  simp only [hostRead, readWindow_regIndex]

section Run

variable {n : Nat} {ready : Bool} {s : State}

theorem run_writeConvIn (word : Word) :
    Host.Core.run core (n + 1) (placeTurn ready (.host (writeReg .convIn word)) s) =
      Host.Core.run core n (setConvIn word s) := run_succ rfl

theorem run_cmdAccess (h : s.status.busy = false) (i : Instr) :
    Host.Core.run core (n + 1) (placeTurn ready (.host (cmdAccess i)) s) = Host.Core.run core n (accepted i s) := by
  apply run_succ
  rw [cmdAccess, writeReg, regIndex, step_command, hostWriteCmd_of_decode (decode_encode i), exec_idle h]

theorem run_convStep (h : s.fsm = .conv) :
    Host.Core.run core (n + 1) (placeTurn ready .engine s) = Host.Core.run core n (convStep s) := by
  apply run_succ
  rw [step_engine, engineStep, h]

theorem run_readOf (r : Reg) :
    Host.Core.run core (n + 1) (placeTurn ready (.host (readOf r)) s) =
      Host.Core.run core n (hostRead (regIndex r) s) := run_succ rfl

/-! No step of the line reads or writes the turns still to come. -/

theorem setConvIn_placeTurn (a : Action) (word : Word) :
    setConvIn word (placeTurn ready a s) = placeTurn ready a (setConvIn word s) := rfl

theorem accepted_convert_placeTurn (a : Action) :
    accepted .convert (placeTurn ready a s) = placeTurn ready a (accepted .convert s) := rfl

theorem convStep_placeTurn (a : Action) : convStep (placeTurn ready a s) = placeTurn ready a (convStep s) := rfl

theorem readReg_placeTurn (a : Action) (r : Reg) : readReg r (placeTurn ready a s) = readReg r s := by
  cases r <;> rfl

theorem hostRead_placeTurn (a : Action) (r : Reg) :
    hostRead (regIndex r) (placeTurn ready a s) = placeTurn ready a (hostRead (regIndex r) s) := by
  simp only [hostRead, readWindow_regIndex, readReg_placeTurn]
  rfl

end Run

/-! ### The line -/

/-- The state after the line's CONVERT has run on the channels (R183). -/
def converted (r g b : Byte) (s : State) : State := convStep (accepted .convert (setConvIn (convWord r g b) s))

theorem converted_busy (r g b : Byte) (s : State) : (converted r g b s).status.busy = false := rfl

theorem converted_replies (r g b : Byte) (s : State) : (converted r g b s).replies = s.replies := rfl

/-- Acceptance latches CONV_IN, and the conversion takes its channels from the latch (R183, R228). -/
theorem converted_convOut (r g b : Byte) (s : State) : (converted r g b s).convOut = pack565 r g b := by
  have hlatch : (converted r g b s).convOut =
      pack565 (((convWord r g b).extractLsb' 0 24).extractLsb' 16 8)
        (((convWord r g b).extractLsb' 0 24).extractLsb' 8 8)
        (((convWord r g b).extractLsb' 0 24).extractLsb' 0 8) := rfl
  rw [hlatch, convWord_red, convWord_green, convWord_blue]

/-- The state the line's five steps leave. -/
theorem run_convLine {s : State} (h : s.status.busy = false) (r g b : Byte) (k1 k2 k3 k4 k5 : Bool) :
    Host.Core.run core 5
      (placeTurn k1 (.host (writeReg .convIn (convWord r g b))) (placeTurn k2 (.host (cmdAccess .convert))
        (placeTurn k3 .engine (placeTurn k4 (.host (readOf .status)) (placeTurn k5 (.host (readOf .convOut)) s))))) =
      .next (hostRead (regIndex .convOut) (hostRead (regIndex .status) (converted r g b s))) := by
  simp only [run_writeConvIn, setConvIn_placeTurn]
  refine (run_cmdAccess (by exact h) .convert).trans ?_
  simp only [accepted_convert_placeTurn]
  refine (run_convStep (by rfl)).trans ?_
  simp only [convStep_placeTurn, run_readOf, hostRead_placeTurn]
  rfl

/-- Settles O58: the poll reads a STATUS with BUSY = 0, and the last read the conversion's result. -/
theorem convLineReturnsTheColour : Obligations.ConvLineReturnsTheColour := by
  intro s r g b k1 k2 k3 k4 k5 a1 a2 a3 a4 hidle hline
  cases (expandLine_conv r g b).symm.trans hline
  refine ⟨_, statusWord (converted r g b s), run_convLine hidle r g b k1 k2 k3 k4 k5, ?_, ?_⟩
  · rw [hostRead_regIndex_replies, hostRead_regIndex_replies, converted_replies, ← converted_convOut r g b s,
      List.append_assoc]
    rfl
  · rw [waitEnds, statusWord_bit0, converted_busy]
    rfl

end Sys2Proof.Machine
end

section
/-! PROOFS. The parse (spec/40_header_parse.md R120 to R140): the little-endian fields as numbers, the first test of the
parse to fail, and the parse step that follows from it. -/

namespace Sys2Proof.Machine

/-! ### Little-endian fields -/

theorem le16_eq_ofNat (b0 b1 : Byte) : le16 b0 b1 = BitVec.ofNat 16 (b0.toNat + 256 * b1.toNat) := by
  rw [← le16_toNat, BitVec.ofNat_toNat, BitVec.setWidth_eq]

theorem le32_eq_ofNat (b0 b1 b2 b3 : Byte) : le32 b0 b1 b2 b3 =
    BitVec.ofNat 32 (b0.toNat + 256 * b1.toNat + 65536 * b2.toNat + 16777216 * b3.toNat) := by
  rw [← le32_toNat, BitVec.ofNat_toNat, BitVec.setWidth_eq]

theorem le16_inj {b0 b1 c0 c1 : Byte} : le16 b0 b1 = le16 c0 c1 ↔ b0 = c0 ∧ b1 = c1 := by
  simp only [← BitVec.toNat_inj, le16_toNat]
  have := b0.isLt
  have := c0.isLt
  omega

theorem le32_inj {b0 b1 b2 b3 c0 c1 c2 c3 : Byte} :
    le32 b0 b1 b2 b3 = le32 c0 c1 c2 c3 ↔ b0 = c0 ∧ b1 = c1 ∧ b2 = c2 ∧ b3 = c3 := by
  simp only [← BitVec.toNat_inj, le32_toNat]
  have := b0.isLt
  have := b1.isLt
  have := b2.isLt
  have := c0.isLt
  have := c1.isLt
  have := c2.isLt
  omega

/-- Settles O20: each read has two cases, and the bytes of a field that fits are its base-256 digits. -/
theorem fieldReadsAreLittleEndian : Obligations.FieldReadsAreLittleEndian := by
  intro m n
  constructor
  · split
    · rw [read16_ok ‹_›, le16_eq_ofNat]
    · exact read16_overrun (Nat.lt_of_not_le ‹_›)
  · split
    · rw [read32_ok ‹_›, le32_eq_ofNat]
    · exact read32_overrun (Nat.lt_of_not_le ‹_›)

/-! ### The three checks, byte by byte -/

/-- The image starts with the bytes 42 4D (R133). -/
def HasMagic (m : Memory) : Prop := imgByte m 0 = 0x42 ∧ imgByte m 1 = 0x4D

/-- The field at offset 26 holds the plane count 1 (R135). -/
def HasOnePlane (m : Memory) : Prop := imgByte m 26 = 1 ∧ imgByte m 27 = 0

/-- The field at offset 30 holds the compression 0 (R136). -/
def HasNoCompression (m : Memory) : Prop :=
  imgByte m 30 = 0 ∧ imgByte m 31 = 0 ∧ imgByte m 32 = 0 ∧ imgByte m 33 = 0

theorem magic_test_fails_iff {m : Memory} :
    (le16 (imgByte m 0) (imgByte m 1) == 0x4D42) = false ↔ ¬ HasMagic m := by
  rw [beq_eq_false_iff_ne, show (0x4D42 : Half) = le16 0x42 0x4D from rfl, Ne, le16_inj, HasMagic]

theorem planes_test_fails_iff {m : Memory} :
    (le16 (imgByte m 26) (imgByte m 27) == 1) = false ↔ ¬ HasOnePlane m := by
  rw [beq_eq_false_iff_ne, show (1 : Half) = le16 1 0 from rfl, Ne, le16_inj, HasOnePlane]

theorem compression_test_fails_iff {m : Memory} :
    ((headerOf m).compression == 0) = false ↔ ¬ HasNoCompression m := by
  rw [beq_eq_false_iff_ne, show (0 : Word) = le32 0 0 0 0 from rfl, Ne, headerOf, le32_inj, HasNoCompression]

/-! ### The first test of the parse to fail -/

theorem parseHeader_of_wrong_magic {m : Memory} (hlen : 2 ≤ imgLen m) (h : ¬ HasMagic m) :
    parseHeader m = .error (invalidFormat .magic 0) := by
  rw [parseHeader_eq, if_neg (by omega), if_pos (magic_test_fails_iff.2 h)]

/-- An image of 28 bytes or more that passes the check of the magic comes to the check of the plane count. -/
theorem parseHeader_of_wrong_planes {m : Memory} (hlen : 28 ≤ imgLen m) (hmagic : HasMagic m)
    (h : ¬ HasOnePlane m) : parseHeader m = .error (invalidFormat .planes 26) := by
  have fits : ∀ k, k ≤ 28 → ¬ imgLen m < k := fun k hk => by omega
  rw [parseHeader_eq, if_neg (fits 2 (by decide)), if_neg (magic_test_fails_iff.1 · hmagic),
    if_neg (fits 6 (by decide)), if_neg (fits 14 (by decide)), if_neg (fits 18 (by decide)),
    if_neg (fits 22 (by decide)), if_neg (fits 26 (by decide)), if_neg (fits 28 (by decide)),
    if_pos (planes_test_fails_iff.2 h)]

/-- With the magic and one plane, a long image's parse turns on the compression alone. -/
theorem parseHeader_of_checked {m : Memory} (hlen : 34 ≤ imgLen m) (hmagic : HasMagic m) (hplane : HasOnePlane m) :
    parseHeader m = if ((headerOf m).compression == 0) = false then .error (invalidFormat .compression 30)
      else .ok (headerOf m) := by
  rw [parseHeader_of_long hlen, if_neg (magic_test_fails_iff.1 · hmagic),
    if_neg (planes_test_fails_iff.1 · hplane)]

theorem parseHeader_of_compression {m : Memory} (hlen : 34 ≤ imgLen m) (hmagic : HasMagic m)
    (hplane : HasOnePlane m) (h : ¬ HasNoCompression m) :
    parseHeader m = .error (invalidFormat .compression 30) := by
  rw [parseHeader_of_checked hlen hmagic hplane, if_pos (compression_test_fails_iff.2 h)]

theorem parseHeader_of_valid {m : Memory} (hlen : 34 ≤ imgLen m) (hmagic : HasMagic m) (hplane : HasOnePlane m)
    (h : HasNoCompression m) : parseHeader m = .ok (headerOf m) := by
  rw [parseHeader_of_checked hlen hmagic hplane, if_neg (compression_test_fails_iff.1 · h)]

/-- The end offset of the first field of the header that an image of `n < 34` bytes does not hold whole (R137). -/
def fieldEnd (n : Nat) : Nat :=
  if n < 2 then 2 else if n < 6 then 6 else if n < 14 then 14 else if n < 18 then 18 else if n < 22 then 22
  else if n < 26 then 26 else if n < 28 then 28 else if n < 30 then 30 else 34

/-- A chain of tests answers `overrun` of the chain of offsets, where its rest does. -/
theorem ite_overrun {α : Type} {c : Prop} [Decidable c] {k k' : Nat} {x : Except Raise α}
    (h : ¬ c → x = .error (overrun k')) :
    (if c then .error (overrun k) else x) = .error (overrun (if c then k else k')) := by
  by_cases hc : c
  · rw [if_pos hc, if_pos hc]
  · rw [if_neg hc, if_neg hc, h hc]

/-- An image that ends inside the header and passes the checks it is long enough for (R137). -/
theorem parseHeader_of_short {m : Memory} (hlen : imgLen m < 34) (hmagic : 2 ≤ imgLen m → HasMagic m)
    (hplane : 28 ≤ imgLen m → HasOnePlane m) : parseHeader m = .error (overrun (fieldEnd (imgLen m))) := by
  rw [parseHeader_eq, fieldEnd]
  refine ite_overrun fun _ => ?_
  rw [if_neg (magic_test_fails_iff.1 · (hmagic (by omega)))]
  refine ite_overrun fun _ => ite_overrun fun _ => ite_overrun fun _ => ite_overrun fun _ => ite_overrun fun _ =>
    ite_overrun fun _ => ?_
  rw [if_neg (planes_test_fails_iff.1 · (hplane (by omega)))]
  exact ite_overrun fun _ => if_pos hlen

theorem satWord_fieldEnd (n : Nat) : satWord (fieldEnd n) =
    if n < 2 then 2 else if n < 6 then 6 else if n < 14 then 14 else if n < 18 then 18 else if n < 22 then 22
    else if n < 26 then 26 else if n < 28 then 28 else if n < 30 then 30 else 34 := by
  simp only [fieldEnd, apply_ite satWord]
  rfl

/-- The four bytes of `b` from `n` on as a little-endian word (R122). -/
def leWord (b : Nat → Nat) (n : Nat) : Word :=
  BitVec.ofNat 32 (b n + 256 * b (n + 1) + 65536 * b (n + 2) + 16777216 * b (n + 3))

/-- The header with the bytes `b`, one plane and no compression (R81). -/
def validHeader (b : Nat → Nat) : Header :=
  { fileSize := leWord b 2, pixelOffset := leWord b 10, headerSize := leWord b 14, width := leWord b 18,
    height := leWord b 22, planesBpp := BitVec.ofNat 32 (1 + 65536 * (b 28 + 256 * b 29)), compression := 0 }

theorem headerOf_eq_validHeader {m : Memory} (hplane : HasOnePlane m) (hcomp : HasNoCompression m) {b : Nat → Nat}
    (hb : ∀ a, b a = (imgByte m a).toNat) : headerOf m = validHeader b := by
  have hcompression : le32 (imgByte m 30) (imgByte m 31) (imgByte m 32) (imgByte m 33) = 0 := le32_inj.2 hcomp
  have hplanes : le16 (imgByte m 26) (imgByte m 27) = 1 := le16_inj.2 hplane
  have hpair : le16 (imgByte m 28) (imgByte m 29) ++ (1 : Half) = BitVec.ofNat 32 (1 + 65536 * (b 28 + 256 * b 29)) := by
    rw [hb, hb, ← le16_toNat, ← BitVec.toNat_inj, BitVec.toNat_append, BitVec.toNat_ofNat,
      ← Nat.shiftLeft_add_eq_or_of_lt (1 : Half).isLt, Nat.shiftLeft_eq, show (1 : Half).toNat = 1 from rfl]
    have := (le16 (imgByte m 28) (imgByte m 29)).isLt
    omega
  simp only [headerOf, validHeader, leWord, hcompression, hplanes, hpair, le32_eq_ofNat, hb]

/-! ### The parse step -/

theorem parseStep_of_error {s : State} {r : Raise} (h : parseHeader s.config.img = .error r) :
    parseStep s = raise r s := by
  rw [parseStep, h]

theorem parseStep_of_ok {s : State} {h : Header} (hp : parseHeader s.config.img = .ok h) :
    parseStep s = commit h s := by
  rw [parseStep, hp]

theorem step_parse_error {s : State} {r : Raise} (ready : Bool) (hf : s.fsm = .parse)
    (h : parseHeader s.config.img = .error r) : step (placeTurn ready .engine s) = .next (raise r s) := by
  rw [step_parse ready hf, parseStep_of_error h]

/-- What the parse step can do: its raise, or the header's commit (R132). -/
theorem parseStep_cases (s : State) :
    (∃ r, parseHeader s.config.img = .error r ∧ parseStep s = raise r s) ∨
      ∃ h, parseHeader s.config.img = .ok h ∧ parseStep s = commit h s := by
  cases hp : parseHeader s.config.img with
  | error r => exact .inl ⟨r, rfl, parseStep_of_error hp⟩
  | ok h => exact .inr ⟨h, rfl, parseStep_of_ok hp⟩

/-- Settles O21: the header that passes is the one of R81, and its commit has two cases. -/
theorem parseStepCommitsAValidHeader : Obligations.ParseStepCommitsAValidHeader := by
  intro s ready b hb hfsm hlen h0 h1 h26 h27 h30 h31 h32 h33
  have byte {a : Nat} {v : Byte} (h : b a = v.toNat) : imgByte s.config.img a = v :=
    BitVec.eq_of_toNat_eq ((hb a).symm.trans h)
  have hmagic : HasMagic s.config.img := ⟨byte h0, byte h1⟩
  have hplane : HasOnePlane s.config.img := ⟨byte h26, byte h27⟩
  have hcomp : HasNoCompression s.config.img := ⟨byte h30, byte h31, byte h32, byte h33⟩
  rw [step_parse ready hfsm, parseStep_of_ok (parseHeader_of_valid hlen hmagic hplane hcomp),
    headerOf_eq_validHeader hplane hcomp hb]
  rcases commit_cases (validHeader b) s with ⟨hthen, he⟩ | ⟨hthen, he⟩
  · rw [he]
    exact (if_pos hthen).symm
  · rw [he]
    exact (if_neg (by simp [hthen])).symm

/-- Settles O22: the magic is the parse's first check. -/
theorem wrongMagicEndsTheParse : Obligations.WrongMagicEndsTheParse :=
  fun _ ready hfsm hlen h => step_parse_error ready hfsm (parseHeader_of_wrong_magic hlen h)

/-- Settles O23: the check of the plane count needs 28 bytes only. -/
theorem wrongPlaneCountEndsTheParse : Obligations.WrongPlaneCountEndsTheParse :=
  fun _ ready hfsm hlen h0 h1 h => step_parse_error ready hfsm (parseHeader_of_wrong_planes hlen ⟨h0, h1⟩ h)

/-- Settles O24: the compression is the parse's last check. -/
theorem compressionEndsTheParse : Obligations.CompressionEndsTheParse :=
  fun _ ready hfsm hlen h0 h1 h26 h27 h =>
    step_parse_error ready hfsm (parseHeader_of_compression hlen ⟨h0, h1⟩ ⟨h26, h27⟩ h)

/-- An image that holds the whole header fails a check, if anything, and no read. -/
theorem raise_err_of_long {m : Memory} {r : Raise} (hlen : 34 ≤ imgLen m) (h : parseHeader m = .error r) :
    r.err = .invalidFormat := by
  rcases parseHeader_error h with rfl | rfl | rfl | ⟨k, hk, hk34, -⟩
  · rfl
  · rfl
  · rfl
  · omega

/-- Commit keeps ERR for the BLIT_CHECK to come, or clears it in the finish (R138). -/
theorem commit_err (h : Header) (s : State) :
    (commit h s).status.err = s.status.err ∨ (commit h s).status.err = .none := by
  rcases commit_cases h s with ⟨-, he⟩ | ⟨-, he⟩ <;> rw [he]
  · exact .inl rfl
  · exact .inr rfl

theorem parseStep_err_of_long {s : State} (hlen : 34 ≤ imgLen s.config.img) (herr : s.status.err ≠ .truncatedData) :
    (parseStep s).status.err ≠ .truncatedData := by
  rcases parseStep_cases s with ⟨r, hp, he⟩ | ⟨h, -, he⟩
  · rw [he, raise_status, statusFinished_err, raise_err_of_long hlen hp]
    nofun
  · rw [he]
    rcases commit_err h s with hc | hc <;> rw [hc]
    · exact herr
    · nofun

/-- Settles O25: a short image overruns at the field the table names, a long one at none. -/
theorem truncatedHeaderReportsTheFieldEnd : Obligations.TruncatedHeaderReportsTheFieldEnd := by
  constructor
  · intro s ready hfsm hlen herr
    exact ⟨parseStep s, step_parse ready hfsm, parseStep_err_of_long hlen herr⟩
  · rintro s ready n rfl hfsm hlen hmagic hplane
    rw [step_parse_error ready hfsm (parseHeader_of_short hlen hmagic hplane), ← satWord_fieldEnd]
    rfl

/-! ### What the parse step does not touch -/

/-- The operands, the latches, CONV_OUT, the walk's registers, the arbiter and HIST: what the parse step neither reads
nor writes (R140). -/
structure ParseRest where
  originX : Word
  originY : Word
  latOx : Word
  latOy : Word
  latCin : BitVec 24
  convIn : BitVec 24
  convOut : Half
  pixCount : Word
  cursor : Word
  row : Word
  col : Word
  arb : Arbiter
  hist : List SinkEvent

/-- The state with other values of the registers of R140. -/
def ParseRest.put (x : ParseRest) (s : State) : State :=
  { s with originX := x.originX, originY := x.originY, latOx := x.latOx, latOy := x.latOy, latCin := x.latCin,
           convIn := x.convIn, convOut := x.convOut, pixCount := x.pixCount, cursor := x.cursor, row := x.row,
           col := x.col, arb := x.arb, hist := x.hist }

theorem commit_put (x : ParseRest) (h : Header) (s : State) : commit h (x.put s) = x.put (commit h s) := by
  rcases commit_cases h s with ⟨hb, he⟩ | ⟨hb, he⟩
  · rw [he]
    exact if_pos hb
  · rw [he]
    exact if_neg (by simp [ParseRest.put, hb])

theorem parseStep_put (x : ParseRest) (s : State) : parseStep (x.put s) = x.put (parseStep s) := by
  rcases parseStep_cases s with ⟨r, hp, he⟩ | ⟨h, hp, he⟩
  · rw [he, parseStep_of_error (s := x.put s) hp]
    rfl
  · rw [he, parseStep_of_ok (s := x.put s) hp, commit_put]

/-- The parse step writes the header and the registers of a finish only, and of STATUS neither OVR nor LAST_OP. -/
theorem parseStep_frame (s : State) : parseStep s =
    { s with hdr := (parseStep s).hdr,
             status := { (parseStep s).status with ovr := s.status.ovr, lastOp := s.status.lastOp },
             errInfo := (parseStep s).errInfo, fsm := (parseStep s).fsm } := by
  rcases parseStep_cases s with ⟨r, -, he⟩ | ⟨h, -, he⟩
  · rw [he]
    rfl
  · rcases commit_cases h s with ⟨-, hc⟩ | ⟨-, hc⟩
    · rw [he, hc]
    · rw [he, hc]
      rfl

theorem step_parse_put {s : State} (x : ParseRest) (ready : Bool) (h : s.fsm = .parse) :
    step (placeTurn ready .engine (x.put s)) = .next (x.put (parseStep s)) := by
  rw [← parseStep_put]
  exact step_parse ready h

/-- Settles O26: the step has its frame, and commutes with putting other values in the registers of R140. -/
theorem parseStepIgnoresTheRest : Obligations.ParseStepIgnoresTheRest := by
  intro s ready ox oy lx ly pc cu ro co ci lc cout arb hist hfsm
  exact ⟨parseStep s, step_parse ready hfsm, parseStep_frame s,
    step_parse_put ⟨ox, oy, lx, ly, lc, ci, cout, pc, cu, ro, co, arb, hist⟩ ready hfsm⟩

/-! ### PARSE -/

/-- Settles O8: PARSE with BUSY 0 is the common acceptance, then its own. -/
theorem parseIsAccepted : Obligations.ParseIsAccepted := fun _ h => exec_idle h .parse

end Sys2Proof.Machine
end

section
/-! PROOFS. The turns laid down (spec/00_scope.md R8): the ENGINE's step neither reads nor writes them, so a run of
ENGINE turns is that step iterated. -/

namespace Sys2Proof.Machine

/-- The state with other turns to come. -/
def withTurns (ts : List Turn) (s : State) : State := { s with turns := ts }

theorem placeTurn_eq_withTurns (ready : Bool) (a : Action) (s : State) :
    placeTurn ready a s = withTurns ({ sinkReady := ready, action := a } :: s.turns) s := rfl

theorem eq_placeTurn {s : State} {ready : Bool} {a : Action} {ts : List Turn}
    (h : s.turns = { sinkReady := ready, action := a } :: ts) : s = placeTurn ready a (withTurns ts s) := by
  rw [placeTurn, withTurns, ← h]

section Turns

variable (ts : List Turn) (s : State)

theorem commit_withTurns (h : Header) : commit h (withTurns ts s) = withTurns ts (commit h s) := by
  rcases commit_cases h s with ⟨hb, he⟩ | ⟨hb, he⟩
  · rw [he]
    exact if_pos hb
  · rw [he]
    exact if_neg (by simp [withTurns, hb])

theorem parseStep_withTurns : parseStep (withTurns ts s) = withTurns ts (parseStep s) := by
  rcases parseStep_cases s with ⟨r, hp, he⟩ | ⟨h, hp, he⟩
  · rw [he, parseStep_of_error (s := withTurns ts s) hp]
    rfl
  · rw [he, parseStep_of_ok (s := withTurns ts s) hp, commit_withTurns]

theorem blitCheck_withTurns : blitCheck (withTurns ts s) = withTurns ts (blitCheck s) := by
  simp only [blitCheck, apply_ite (withTurns ts)]
  rfl

theorem advance_withTurns : advance (withTurns ts s) = withTurns ts (advance s) := by
  simp only [advance, apply_ite (withTurns ts)]
  rfl

theorem pixelStep_withTurns : pixelStep (withTurns ts s) = withTurns ts (pixelStep s) := by
  have hread : readBytes (withTurns ts s).config.img (u32 (withTurns ts s).cursor) 3 =
      readBytes s.config.img (u32 s.cursor) 3 := rfl
  rw [pixelStep, pixelStep, hread]
  cases readBytes s.config.img (u32 s.cursor) 3 with
  | error r => rfl
  | ok bs => exact advance_withTurns ts (pixelSent _ s)

/-- The ENGINE's step neither reads nor writes the turns to come. -/
theorem engineStep_withTurns (ready : Bool) :
    engineStep ready (withTurns ts s) = withTurns ts (engineStep ready s) := by
  have hfsm : (withTurns ts s).fsm = s.fsm := rfl
  rw [engineStep, engineStep, hfsm]
  cases s.fsm with
  | idle => rfl
  | parse => exact parseStep_withTurns ts s
  | blitCheck => exact blitCheck_withTurns ts s
  | conv => rfl
  | blitPix =>
    show (if pixelEnabled ready s then pixelStep (withTurns ts s) else withTurns ts s) = _
    rw [pixelStep_withTurns, ← apply_ite (withTurns ts)]

theorem engineStep_turns (ready : Bool) : (engineStep ready s).turns = s.turns := by
  have h := congrArg State.turns (engineStep_withTurns s.turns s ready)
  exact h

theorem engineStep_placeTurn (ready ready' : Bool) (a : Action) :
    engineStep ready (placeTurn ready' a s) = placeTurn ready' a (engineStep ready s) := by
  rw [placeTurn_eq_withTurns, engineStep_withTurns, placeTurn_eq_withTurns, engineStep_turns]

end Turns

section Run

variable {n : Nat} {ready : Bool} {s : State}

theorem run_engine : Host.Core.run core (n + 1) (placeTurn ready .engine s) =
    Host.Core.run core n (engineStep ready s) := run_succ rfl

theorem run_arb : Host.Core.run core (n + 1) (placeTurn ready .arb s) = Host.Core.run core n (grantStep s) :=
  run_succ rfl

end Run

/-- A run of `n` ENGINE turns that find the sink ready is `n` steps of the ENGINE. -/
theorem run_engineTurns {n : Nat} {s : State} {rest : List Turn}
    (h : s.turns = List.replicate n { sinkReady := true, action := .engine } ++ rest) :
    Host.Core.run core n s = .next ((engineStep true)^[n] (withTurns rest s)) := by
  induction n generalizing s with
  | zero =>
    have hrest : s.turns = rest := h
    rw [run_zero, Function.iterate_zero_apply, withTurns, ← hrest]
  | succ n ih =>
    let u := withTurns (List.replicate n { sinkReady := true, action := .engine } ++ rest) s
    have hs : s = placeTurn true .engine u := eq_placeTurn h
    have hcommute : engineStep true (withTurns rest u) = withTurns rest (engineStep true u) :=
      engineStep_withTurns rest u true
    calc Host.Core.run core (n + 1) s
      _ = Host.Core.run core n (engineStep true u) := by rw [hs]; exact run_engine
      _ = .next ((engineStep true)^[n] (withTurns rest (engineStep true u))) := ih (engineStep_turns u true)
      _ = .next ((engineStep true)^[n] (engineStep true (withTurns rest u))) := by rw [hcommute]
      _ = .next ((engineStep true)^[n + 1] (withTurns rest s)) := rfl

end Sys2Proof.Machine
end

section
/-! PROOFS. BLIT and DECODE_BLIT (spec/41_raster_blit.md R150 to R163): their acceptance, the BLIT_CHECK step, the pixel
step, the whole walk, and DECODE_BLIT from its write to its finish. -/

namespace Sys2Proof.Machine

/-! ### Acceptance -/

/-- Settles O9: BLIT with BUSY 0 is the common acceptance, then its own. -/
theorem blitIsAccepted : Obligations.BlitIsAccepted := fun _ h => exec_idle h .blit

/-- Settles O10: DECODE_BLIT with BUSY 0 is the common acceptance, then its own. -/
theorem decodeBlitIsAccepted : Obligations.DecodeBlitIsAccepted := fun _ h => exec_idle h .decodeBlit

/-! ### The BLIT_CHECK step -/

theorem engineStep_blitCheck {s : State} (ready : Bool) (h : s.fsm = .blitCheck) :
    engineStep ready s = blitCheck s := by
  rw [engineStep, h]

/-- The saturated count of R242 as an integer's. -/
theorem satWord_toNat {e : Int} (h : 0 ≤ e) : satWord e.toNat = BitVec.ofInt 32 (min e 0xFFFFFFFF) := by
  obtain ⟨k, rfl⟩ := Int.eq_ofNat_of_zero_le h
  rw [satWord, Int.toNat_natCast, ← BitVec.ofInt_natCast, Nat.cast_min]
  rfl

/-- Settles O28: the three tests are the step's own; the extent that is past the image is no negative number. -/
theorem blitCheckGatesTheWalk : Obligations.BlitCheckGatesTheWalk := by
  rintro s ready w h e hfsm rfl rfl rfl
  rw [step_engine, engineStep_blitCheck ready hfsm]
  simp only [blitCheck, apply_ite Host.Outcome.next]
  refine if_congr Iff.rfl rfl (if_congr Iff.rfl rfl ?_)
  by_cases hx : rasterEnd s > imgLen s.config.img
  · rw [if_pos hx, overrun, satWord_toNat (by omega)]
    exact (if_pos hx).symm
  · rw [if_neg hx]
    exact (if_neg hx).symm

/-! ### The pixel step -/

theorem wrap32_add (a b : Int) : wrap32 (a + b) = wrap32 a + wrap32 b := BitVec.ofInt_add ..

theorem wrap32_s32 (v : Word) : wrap32 (s32 v) = v := BitVec.ofInt_toInt

theorem wrap32_succ (n : Int) : wrap32 (n + 1) = wrap32 n + 1 := wrap32_add n 1

theorem wrap32_pred (n : Int) : wrap32 (n - 1) = wrap32 n - 1 := by
  rw [Int.sub_eq_add_neg, wrap32_add, BitVec.sub_eq_add_neg]
  rfl

theorem xcoord_eq (s : State) : xcoord s = if s.config.originXAdd then s.latOx + s.col else s.col := by
  rw [xcoord, wrap32_add, wrap32_s32, wrap32_s32]

theorem ycoord_eq (s : State) : ycoord s = s.row + s.latOy := by
  rw [ycoord, wrap32_add, wrap32_s32, wrap32_s32]

/-- The event of the pixel step (R157 to R159). -/
def pixelEvent (s : State) : SinkEvent :=
  .pix .p0 (xcoord s) (ycoord s)
    (pack565 (imgByte s.config.img (u32 s.cursor + 2)) (imgByte s.config.img (u32 s.cursor + 1))
      (imgByte s.config.img (u32 s.cursor)))

/-- The step of an ENGINE that walks, owns a ready sink and reads inside the image (R157). -/
theorem engineStep_pixel {s : State} (hf : s.fsm = .blitPix) (ho : s.arb.owner = some .p0)
    (hread : u32 s.cursor + 3 ≤ imgLen s.config.img) :
    engineStep true s = advance (pixelSent (pixelEvent s) s) := by
  have hen : pixelEnabled true s = true := by rw [pixelEnabled, ho]; rfl
  rw [engineStep, hf]
  show (if pixelEnabled true s then pixelStep s else s) = _
  rw [if_pos hen, pixelStep, readBytes_ok hread]
  rfl

/-- The advance with the sums of 32-bit words for `wrap32` (R157). -/
theorem advance_eq (s : State) : advance s =
    if s32 s.col + 1 < rasterW s then { s with col := s.col + 1 }
    else if s32 s.row > 1 then { s with col := 0, row := s.row - 1 }
    else walkEnd { s with col := 0, row := 0 } := by
  rw [advance, wrap32_succ, wrap32_pred, wrap32_s32, wrap32_s32]

/-- Settles O29: the event is the step's own, and the advance has the three cases. -/
theorem pixelStepWritesOnePixel : Obligations.PixelStepWritesOnePixel := by
  rintro s p ev hf ho hread rfl rfl
  rw [step_engine, engineStep_pixel hf ho hread, pixelEvent, xcoord_eq, ycoord_eq, advance_eq]
  simp only [apply_ite Host.Outcome.next]
  rfl

/-! ### The whole walk -/

/-- A walk that owns the sink and whose raster is not empty and fits (R153, R154). -/
structure FittingWalk (s : State) : Prop where
  fsm : s.fsm = .blitPix
  owner : s.arb.owner = some .p0
  width_pos : 1 ≤ rasterW s
  height_pos : 1 ≤ rasterH s
  fits : rasterEnd s ≤ imgLen s.config.img

/-- The walk that starts in `s`, after its first `k` pixels: pixel number `k` is next, in line `k / W` and column
`k % W` (R156, R162). -/
def walkAt (s : State) (k : Nat) : State :=
  { s with
    hist := s.hist ++ walkEvents s k
    cursor := BitVec.ofNat 32 (u32 s.hdr.pixelOffset + 3 * k)
    pixCount := BitVec.ofNat 32 k
    row := wrap32 (rasterH s - (k / (rasterW s).toNat : Nat))
    col := BitVec.ofNat 32 (k % (rasterW s).toNat) }

theorem walkEvents_succ (s : State) (k : Nat) : walkEvents s (k + 1) = walkEvents s k ++ [walkEvent s k] := by
  simp only [walkEvents, List.range_succ, List.map_append, List.map_cons, List.map_nil]

/-- One pixel more: its event and counters, and the place of the next one. -/
theorem walkAt_succ (s : State) (k : Nat) : walkAt s (k + 1) =
    { pixelSent (walkEvent s k) (walkAt s k) with
      row := wrap32 (rasterH s - ((k + 1) / (rasterW s).toNat : Nat))
      col := BitVec.ofNat 32 ((k + 1) % (rasterW s).toNat) } := by
  have hcursor : BitVec.ofNat 32 (u32 s.hdr.pixelOffset + 3 * (k + 1)) =
      BitVec.ofNat 32 (u32 s.hdr.pixelOffset + 3 * k) + 3 := BitVec.ofNat_add _ 3
  have hcount : BitVec.ofNat 32 (k + 1) = BitVec.ofNat 32 k + 1 := BitVec.ofNat_add k 1
  rw [walkAt, walkEvents_succ, ← List.append_assoc, hcursor, hcount]
  rfl

/-- A walk's first state is the one before pixel 0 (R154). -/
theorem walkAt_zero {s : State} (hrow : s.row = s.hdr.height) (hcol : s.col = 0)
    (hcursor : s.cursor = s.hdr.pixelOffset) (hcount : s.pixCount = 0) : walkAt s 0 = s := by
  have hline : wrap32 (rasterH s - (0 / (rasterW s).toNat : Nat)) = s.row := by
    rw [Nat.zero_div, Int.natCast_zero, Int.sub_zero, hrow]
    exact wrap32_s32 s.hdr.height
  have hoffset : BitVec.ofNat 32 (u32 s.hdr.pixelOffset + 3 * 0) = s.cursor := by
    rw [hcursor, u32, Nat.mul_zero, Nat.add_zero, BitVec.ofNat_toNat, BitVec.setWidth_eq]
  have hhist : s.hist ++ walkEvents s 0 = s.hist := List.append_nil _
  have hzero : BitVec.ofNat 32 (0 % (rasterW s).toNat) = s.col := by
    rw [Nat.zero_mod, hcol]
    rfl
  have hnone : BitVec.ofNat 32 0 = s.pixCount := hcount.symm
  rw [walkAt, hline, hoffset, hhist, hzero, hnone]

/-- The next number is in the next column of the same line, or starts the next line. -/
theorem succ_div_mod {w : Nat} (hw : 0 < w) (k : Nat) :
    (k % w + 1 < w ∧ (k + 1) / w = k / w ∧ (k + 1) % w = k % w + 1) ∨
      (k % w + 1 = w ∧ (k + 1) / w = k / w + 1 ∧ (k + 1) % w = 0) := by
  have hmod := Nat.mod_lt k hw
  have hk := Nat.div_add_mod k w
  by_cases hlt : k % w + 1 < w
  · exact .inl ⟨hlt, (Nat.div_mod_unique hw).2 ⟨by omega, hlt⟩⟩
  · exact .inr ⟨by omega, (Nat.div_mod_unique hw).2 ⟨by rw [Nat.mul_succ]; omega, hw⟩⟩

theorem eq_with_place {u : State} {row col : Word} (hrow : u.row = row) (hcol : u.col = col) :
    u = { u with row := row, col := col } := by
  rw [← hrow, ← hcol]

theorem walkAt_col_succ (s : State) (k : Nat) :
    (walkAt s k).col + 1 = BitVec.ofNat 32 (k % (rasterW s).toNat + 1) := (BitVec.ofNat_add _ 1).symm

theorem walkAt_row_pred (s : State) (k : Nat) :
    (walkAt s k).row - 1 = wrap32 (rasterH s - (k / (rasterW s).toNat + 1 : Nat)) := by
  rw [Nat.cast_succ, ← Int.sub_sub, wrap32_pred, walkAt]

section Walk

variable {s : State} (h : FittingWalk s)
include h

theorem FittingWalk.width_toNat_pos : 0 < (rasterW s).toNat := by
  have := h.width_pos
  omega

theorem FittingWalk.pixelTotal_eq : pixelTotal s = (rasterW s).toNat * (rasterH s).toNat :=
  Int.toNat_mul (by linarith [h.width_pos]) (by linarith [h.height_pos])

theorem FittingWalk.pixelTotal_pos : 0 < pixelTotal s := by
  have := h.height_pos
  rw [h.pixelTotal_eq]
  exact Nat.mul_pos h.width_toNat_pos (by omega)

/-- The samples of all the raster's pixels lie in the image (R153). -/
theorem FittingWalk.extent_le : u32 s.hdr.pixelOffset + 3 * pixelTotal s ≤ imgLen s.config.img := by
  have harea : (pixelTotal s : Int) = rasterW s * rasterH s :=
    Int.toNat_of_nonneg (Int.mul_nonneg (by linarith [h.width_pos]) (by linarith [h.height_pos]))
  have hfits := h.fits
  rw [rasterEnd, Int.mul_assoc] at hfits
  omega

/-- The raster's pixels are those of its lines. -/
theorem FittingWalk.lt_pixelTotal_iff (k : Nat) : k < pixelTotal s ↔ k / (rasterW s).toNat < (rasterH s).toNat := by
  rw [h.pixelTotal_eq, Nat.div_lt_iff_lt_mul h.width_toNat_pos, Nat.mul_comm]

theorem FittingWalk.col_walkAt (k : Nat) : s32 (walkAt s k).col = (k % (rasterW s).toNat : Nat) := by
  have hmax : rasterW s < 2147483648 := s32_lt s.hdr.width
  have hmod := Nat.mod_lt k h.width_toNat_pos
  have hcol : (walkAt s k).col = wrap32 (k % (rasterW s).toNat : Nat) := (BitVec.ofInt_natCast 32 _).symm
  rw [hcol, s32_wrap32 (by omega) (by omega)]

section Pixel

variable {k : Nat} (hk : k < pixelTotal s)
include hk

theorem FittingWalk.cursor_walkAt : u32 (walkAt s k).cursor = u32 s.hdr.pixelOffset + 3 * k := by
  have hextent := h.extent_le
  have hlen : imgLen s.config.img < 2 ^ 32 := s.config.img.len.isLt
  rw [walkAt, u32, BitVec.toNat_ofNat, Nat.mod_eq_of_lt (by omega)]

theorem FittingWalk.row_walkAt : s32 (walkAt s k).row = rasterH s - (k / (rasterW s).toNat : Nat) := by
  have hmax : rasterH s < 2147483648 := s32_lt s.hdr.height
  have hline := (h.lt_pixelTotal_iff k).1 hk
  generalize hl : k / (rasterW s).toNat = line at hline
  rw [walkAt, hl, s32_wrap32 (by omega) (by omega)]

/-- The pixel step's event at pixel `k` is event `k` of the closed form (R162). -/
theorem FittingWalk.pixelEvent_walkAt : pixelEvent (walkAt s k) = walkEvent s k := by
  have hx : xcoord (walkAt s k) = wrap32 (if s.config.originXAdd then s32 s.latOx + (k % (rasterW s).toNat : Nat)
      else (k % (rasterW s).toNat : Nat)) := by
    rw [apply_ite wrap32, ← h.col_walkAt k, wrap32_s32]
    rfl
  have hy : ycoord (walkAt s k) = wrap32 (rasterH s - (k / (rasterW s).toNat : Nat) + s32 s.latOy) := by
    rw [← h.row_walkAt hk]
    rfl
  rw [pixelEvent, hx, hy, h.cursor_walkAt hk]
  rfl

/-- One pixel of the walk: on to the next number, through the walk's end after the last (R157, R160). -/
theorem FittingWalk.engineStep_walkAt : engineStep true (walkAt s k) =
    if k + 1 < pixelTotal s then walkAt s (k + 1) else walkEnd (walkAt s (k + 1)) := by
  have hread : u32 (walkAt s k).cursor + 3 ≤ imgLen s.config.img := by
    have := h.extent_le
    rw [h.cursor_walkAt hk]
    omega
  have hcol := h.col_walkAt k
  have hrow := h.row_walkAt hk
  have hwidth := h.width_pos
  have hheight := h.height_pos
  have hnext := h.lt_pixelTotal_iff (k + 1)
  have hline := (h.lt_pixelTotal_iff k).1 hk
  rw [engineStep_pixel (s := walkAt s k) h.fsm h.owner hread, h.pixelEvent_walkAt hk, advance_eq, walkAt_succ]
  rcases succ_div_mod h.width_toNat_pos k with ⟨hlt, hdiv, hmod⟩ | ⟨hend, hdiv, hmod⟩
  · rw [hdiv] at hnext
    have hinLine : s32 (walkAt s k).col + 1 < rasterW s := by omega
    rw [hdiv, hmod, if_pos (hnext.2 hline), ← walkAt_col_succ]
    exact if_pos hinLine
  · rw [hdiv] at hnext
    have hlineEnd : ¬ s32 (walkAt s k).col + 1 < rasterW s := by omega
    have hrowNext := walkAt_row_pred s k
    rw [hdiv, hmod]
    generalize k / (rasterW s).toNat = line at *
    refine (if_neg hlineEnd).trans ?_
    by_cases hmore : line + 1 < (rasterH s).toNat
    · rw [if_pos (hnext.2 hmore), ← hrowNext]
      exact if_pos (show s32 (walkAt s k).row > 1 by omega)
    · have hlast : rasterH s - (line + 1 : Nat) = 0 := by omega
      rw [if_neg (mt hnext.1 hmore), hlast]
      exact if_neg (show ¬ s32 (walkAt s k).row > 1 by omega)

end Pixel

/-- The ENGINE's steps before the last (R162). -/
theorem FittingWalk.iterate_walkAt {k : Nat} (hk : k < pixelTotal s) :
    (engineStep true)^[k] (walkAt s 0) = walkAt s k := by
  induction k with
  | zero => rfl
  | succ k ih =>
    have hprev : k < pixelTotal s := by omega
    rw [Function.iterate_succ_apply', ih hprev, h.engineStep_walkAt hprev, if_pos hk]

/-- All the ENGINE's steps of the walk (R160, R162). -/
theorem FittingWalk.iterate_pixelTotal :
    (engineStep true)^[pixelTotal s] (walkAt s 0) = walkEnd (walkAt s (pixelTotal s)) := by
  obtain ⟨k, hk⟩ := Nat.exists_eq_succ_of_ne_zero h.pixelTotal_pos.ne'
  have hlast : k < pixelTotal s := by omega
  rw [hk, Function.iterate_succ_apply', h.iterate_walkAt hlast, h.engineStep_walkAt hlast, if_neg (by omega)]

/-- After the last pixel the place is line H, column 0: ROW and COL are 0 (R160). -/
theorem FittingWalk.walkAt_pixelTotal :
    walkAt s (pixelTotal s) = { walkAt s (pixelTotal s) with row := 0, col := 0 } := by
  have hheight := h.height_pos
  have hdiv : pixelTotal s / (rasterW s).toNat = (rasterH s).toNat := by
    rw [h.pixelTotal_eq, Nat.mul_div_cancel_left _ h.width_toNat_pos]
  have hmod : pixelTotal s % (rasterW s).toNat = 0 := by rw [h.pixelTotal_eq, Nat.mul_mod_right]
  have hrow : (walkAt s (pixelTotal s)).row = 0 := by
    rw [walkAt, hdiv, Int.toNat_of_nonneg (by omega), Int.sub_self]
    rfl
  have hcol : (walkAt s (pixelTotal s)).col = 0 := by
    rw [walkAt, hmod]
    rfl
  exact eq_with_place hrow hcol

end Walk

/-- Settles O30: the ENGINE turns iterate its step, which takes the walk from pixel to pixel through its end. -/
theorem walkWritesItsClosedForm : Obligations.WalkWritesItsClosedForm := by
  rintro s n rest hf ho hw hh hx hrow hcol hcursor hcount rfl hturns
  have h : FittingWalk (withTurns rest s) := ⟨hf, ho, hw, hh, hx⟩
  have hstart : walkAt (withTurns rest s) 0 = withTurns rest s := walkAt_zero hrow hcol hcursor hcount
  have hend := h.iterate_pixelTotal
  rw [h.walkAt_pixelTotal, hstart] at hend
  rw [run_engineTurns hturns]
  exact congrArg Host.Outcome.next hend

/-! ### DECODE_BLIT from its write to its finish -/

theorem engineStep_parse {s : State} (ready : Bool) (h : s.fsm = .parse) : engineStep ready s = parseStep s := by
  rw [engineStep, h]

/-- The BLIT_CHECK step that passes its three tests (R154). -/
theorem blitCheck_starts {s : State} (hv : s.status.hdrValid = true) (hw : 1 ≤ rasterW s) (hh : 1 ≤ rasterH s)
    (hx : rasterEnd s ≤ imgLen s.config.img) : blitCheck s = startWalk s := by
  rw [blitCheck, if_neg (by simp [hv]), if_neg (by omega), if_neg (by omega)]

/-- A free sink that only the ENGINE asks for goes to it (R198). -/
theorem grantStep_to_p0 {s : State} (h : s.arb = { owner := none, reqP0 := true, reqP1 := false }) :
    grantStep s = { s with arb := { owner := some .p0, reqP0 := true, reqP1 := false } } := by
  have hg : grantee s.config.arbPriority s.arb = some .p0 := by rw [h]; rfl
  rw [grantStep, hg, h]

/-- An accepted DECODE_BLIT after its parse has loaded the header `h` (R138, R151). -/
def headerLoaded (h : Header) (s : State) : State :=
  { accepted .decodeBlit s with
    hdr := h, status := { (accepted .decodeBlit s).status with hdrValid := true }, fsm := .blitCheck }

/-- The same when its walk has started and been granted the sink (R154, R198). -/
def walkGranted (h : Header) (s : State) : State :=
  { startWalk (headerLoaded h s) with arb := { owner := some .p0, reqP0 := true, reqP1 := false } }

section DecodeBlit

variable {s : State} {h : Header}

theorem engineStep_accepted_decodeBlit (ready : Bool) (hp : parseHeader s.config.img = .ok h) :
    engineStep ready (accepted .decodeBlit s) = headerLoaded h s := by
  rw [engineStep_parse ready rfl, parseStep_of_ok (s := accepted .decodeBlit s) hp]
  rfl

theorem engineStep_headerLoaded (ready : Bool) (hw : 1 ≤ h.width.toInt) (hh : 1 ≤ h.height.toInt)
    (hx : (h.pixelOffset.toNat : Int) + 3 * h.width.toInt * h.height.toInt ≤ imgLen s.config.img) :
    engineStep ready (headerLoaded h s) = startWalk (headerLoaded h s) := by
  rw [engineStep_blitCheck ready rfl]
  exact blitCheck_starts rfl hw hh hx

theorem grantStep_startWalk (harb : s.arb = { owner := none, reqP0 := false, reqP1 := false }) :
    grantStep (startWalk (headerLoaded h s)) = walkGranted h s := by
  have harb' : (headerLoaded h s).arb = { owner := none, reqP0 := false, reqP1 := false } := harb
  exact grantStep_to_p0 (by rw [startWalk_arb, harb'])

/-- The first four steps of DECODE_BLIT: its write, its parse, its BLIT_CHECK and its grant. -/
theorem run_to_walkGranted {n : Nat} (hidle : s.status.busy = false)
    (harb : s.arb = { owner := none, reqP0 := false, reqP1 := false }) (hp : parseHeader s.config.img = .ok h)
    (hw : 1 ≤ h.width.toInt) (hh : 1 ≤ h.height.toInt)
    (hx : (h.pixelOffset.toNat : Int) + 3 * h.width.toInt * h.height.toInt ≤ imgLen s.config.img) :
    Host.Core.run core (n + 4) (placeTurn true (.host (.wr 0 3)) (placeTurn true .engine (placeTurn true .engine
      (placeTurn true .arb s)))) = Host.Core.run core n (walkGranted h s) := by
  have hturns (a : Action) (s : State) :
      accepted .decodeBlit (placeTurn true a s) = placeTurn true a (accepted .decodeBlit s) := rfl
  refine (run_cmdAccess (by exact hidle) .decodeBlit).trans ?_
  simp only [hturns, run_engine, engineStep_placeTurn]
  rw [run_arb, engineStep_accepted_decodeBlit true hp, engineStep_headerLoaded true hw hh hx,
    grantStep_startWalk harb]

end DecodeBlit

/-- Settles O31: the header that passes is the one of R81, and from the grant on the walk has its closed form. -/
theorem decodeBlitRunsToItsEnd : Obligations.DecodeBlitRunsToItsEnd := by
  intro s b h n rest hb hidle harb hlen h0 h1 h26 h27 h30 h31 h32 h33 hh hwidth hheight hn hfits hturns
  have hp : parseHeader s.config.img = .ok h := by
    have byte {a : Nat} {v : Byte} (h : b a = v.toNat) : imgByte s.config.img a = v :=
      BitVec.eq_of_toNat_eq ((hb a).symm.trans h)
    have hplane : HasOnePlane s.config.img := ⟨byte h26, byte h27⟩
    have hcomp : HasNoCompression s.config.img := ⟨byte h30, byte h31, byte h32, byte h33⟩
    rw [parseHeader_of_valid hlen ⟨byte h0, byte h1⟩ hplane hcomp, headerOf_eq_validHeader hplane hcomp hb]
    exact congrArg Except.ok hh.symm
  have hx : (h.pixelOffset.toNat : Int) + 3 * h.width.toInt * h.height.toInt ≤ imgLen s.config.img := by
    rw [Int.mul_assoc, ← hn, imgLen]
    exact_mod_cast hfits
  let u := withTurns (List.replicate n { sinkReady := true, action := .engine } ++ rest) s
  have hs : s = placeTurn true (.host (.wr 0 3)) (placeTurn true .engine (placeTurn true .engine
      (placeTurn true .arb u))) := eq_placeTurn hturns
  have hwalk := walkWritesItsClosedForm (walkGranted h u) n rest rfl rfl hwidth hheight hx rfl rfl rfl rfl
    (by rw [← Int.toNat_natCast n, hn]; rfl) rfl
  calc Host.Core.run core (4 + n) s
    _ = Host.Core.run core n (walkGranted h u) := by
      rw [Nat.add_comm, hs]
      exact run_to_walkGranted hidle harb hp hwidth hheight hx
    _ = _ := hwalk
    _ = _ := by
      refine congrArg Host.Outcome.next ?_
      rw [harb]
      rfl

end Sys2Proof.Machine
end

section
/-! PROOFS. The converter and CONVERT (spec/42_color_convert.md R180 to R185): the packed word as a number, the laws of
the conversion, and CONVERT from its write to its finish. -/

namespace Sys2Proof.Machine

/-! ### Pack565 as a number -/

/-- A field of a word, as a number. -/
theorem extractLsb'_toNat_eq_div_mod {w : Nat} (word : BitVec w) (start len : Nat) :
    (word.extractLsb' start len).toNat = word.toNat / 2 ^ start % 2 ^ len := by
  rw [BitVec.extractLsb'_toNat, Nat.shiftRight_eq_div_pow]

/-- Three fields of 5, 6 and 5 bits at their places in RGB565 have no bit in common, so their union is their sum
(R86). -/
theorem rgb565_or_eq_add {r g b : Nat} (hg : g < 64) (hb : b < 32) :
    r <<< 11 ||| g <<< 5 ||| b = 2048 * r + 32 * g + b := by
  have hlow : g <<< 5 ||| b = 32 * g + b := by
    rw [← Nat.shiftLeft_add_eq_or_of_lt hb, Nat.shiftLeft_eq, Nat.mul_comm]
  have hword : r <<< 11 + (32 * g + b) = r <<< 11 ||| (32 * g + b) :=
    Nat.shiftLeft_add_eq_or_of_lt (by omega : 32 * g + b < 2 ^ 11) r
  rw [Nat.lor_assoc, hlow, ← hword, Nat.shiftLeft_eq, Nat.mul_comm, Nat.add_assoc]

/-- Settles O34: no kept bit is shifted out of the word, and the three fields are disjoint. -/
theorem pack565PacksTruncatedChannels : Obligations.Pack565PacksTruncatedChannels := by
  intro r g b
  have hr := r.isLt
  have hg := g.isLt
  have hb := b.isLt
  have hfields : (pack565 r g b).toNat = (r.toNat / 8) <<< 11 ||| (g.toNat / 4) <<< 5 ||| b.toNat / 8 := by
    simp only [pack565, BitVec.toNat_or, BitVec.toNat_shiftLeft, BitVec.toNat_setWidth,
      extractLsb'_toNat_eq_div_mod, Nat.shiftLeft_eq]
    congr 2 <;> omega
  rw [hfields, rgb565_or_eq_add (by omega) (by omega)]

/-! ### The laws of the conversion -/

/-- A word is packed from exactly the channels whose kept bits are its three fields. -/
theorem pack565_eq_iff {r g b : Byte} {c : Half} : pack565 r g b = c ↔
    r.extractLsb' 3 5 = c.extractLsb' 11 5 ∧ g.extractLsb' 2 6 = c.extractLsb' 5 6 ∧
      b.extractLsb' 3 5 = c.extractLsb' 0 5 := by
  have hr := r.isLt
  have hg := g.isLt
  have hb := b.isLt
  have hc := c.isLt
  simp only [← BitVec.toNat_inj, pack565PacksTruncatedChannels r g b, extractLsb'_toNat_eq_div_mod]
  omega

/-- Law (a): the result depends on the kept bits only, and on all of them. -/
theorem pack565_inj {r g b r' g' b' : Byte} : pack565 r g b = pack565 r' g' b' ↔
    r.extractLsb' 3 5 = r'.extractLsb' 3 5 ∧ g.extractLsb' 2 6 = g'.extractLsb' 2 6 ∧
      b.extractLsb' 3 5 = b'.extractLsb' 3 5 := by
  obtain ⟨hr, hg, hb⟩ := pack565_eq_iff.1 (rfl : pack565 r' g' b' = _)
  rw [pack565_eq_iff, hr, hg, hb]

/-- The three channels with the fields of `c` as their kept bits and the dropped bits `d`. -/
def channelsOf (c : Half) (d : BitVec 3 × BitVec 2 × BitVec 3) : Byte × Byte × Byte :=
  (c.extractLsb' 11 5 ++ d.1, c.extractLsb' 5 6 ++ d.2.1, c.extractLsb' 0 5 ++ d.2.2)

/-- The bits of three channels that the conversion drops (R181). -/
def droppedBits (p : Byte × Byte × Byte) : BitVec 3 × BitVec 2 × BitVec 3 :=
  (p.1.extractLsb' 0 3, p.2.1.extractLsb' 0 2, p.2.2.extractLsb' 0 3)

/-- Law (b): every word is packed from some channels, whatever their dropped bits. -/
theorem pack565_channelsOf (c : Half) (d : BitVec 3 × BitVec 2 × BitVec 3) :
    pack565 (channelsOf c d).1 (channelsOf c d).2.1 (channelsOf c d).2.2 = c :=
  pack565_eq_iff.2 ⟨BitVec.extractLsb'_append_eq_left, BitVec.extractLsb'_append_eq_left,
    BitVec.extractLsb'_append_eq_left⟩

theorem droppedBits_channelsOf (c : Half) (d : BitVec 3 × BitVec 2 × BitVec 3) :
    droppedBits (channelsOf c d) = d := by
  simp only [droppedBits, channelsOf, BitVec.extractLsb'_append_eq_right]

/-- A channel is its kept bits before its dropped ones. -/
theorem keptBits_append_droppedBits (k n : Nat) (x : BitVec (n + k)) :
    x.extractLsb' k n ++ x.extractLsb' 0 k = x := by
  rw [BitVec.extractLsb'_append_extractLsb'_eq_extractLsb' (Nat.zero_add k).symm, BitVec.extractLsb'_eq_self]

theorem channelsOf_droppedBits {c : Half} {p : Byte × Byte × Byte} (h : pack565 p.1 p.2.1 p.2.2 = c) :
    channelsOf c (droppedBits p) = p := by
  obtain ⟨hr, hg, hb⟩ := pack565_eq_iff.1 h
  simp only [channelsOf, droppedBits, ← hr, ← hg, ← hb]
  exact congrArg₂ Prod.mk (keptBits_append_droppedBits 3 5 _)
    (congrArg₂ Prod.mk (keptBits_append_droppedBits 2 6 _) (keptBits_append_droppedBits 3 5 _))

/-- The inputs of a word correspond to the values of the dropped bits. -/
def preimageEquiv (c : Half) :
    { p : Byte × Byte × Byte // pack565 p.1 p.2.1 p.2.2 = c } ≃ BitVec 3 × BitVec 2 × BitVec 3 where
  toFun p := droppedBits p.1
  invFun d := ⟨channelsOf c d, pack565_channelsOf c d⟩
  left_inv p := Subtype.ext (channelsOf_droppedBits p.2)
  right_inv d := droppedBits_channelsOf c d

theorem fintype_card_bitVec (n : Nat) : Fintype.card (BitVec n) = 2 ^ n := by
  rw [← FinEnum.card_eq_fintypeCard, FinEnum.card_bitVec]

/-- Law (e): the eight dropped bits are free. -/
theorem card_pack565_preimage (c : Half) :
    Fintype.card { p : Byte × Byte × Byte // pack565 p.1 p.2.1 p.2.2 = c } = 256 := by
  rw [Fintype.card_congr (preimageEquiv c), Fintype.card_prod, Fintype.card_prod, fintype_card_bitVec,
    fintype_card_bitVec]
  rfl

/-- Law (d): as numbers, each field grows with its channel. -/
theorem pack565_mono {r g b r' g' b' : Byte} (hr : r ≤ r') (hg : g ≤ g') (hb : b ≤ b') :
    pack565 r g b ≤ pack565 r' g' b' := by
  rw [BitVec.le_def] at hr hg hb
  rw [BitVec.le_def, pack565PacksTruncatedChannels, pack565PacksTruncatedChannels]
  omega

/-- Settles O35: the laws are those of the three kept fields, and the dropped bits are free. -/
theorem pack565ObeysItsLaws : Obligations.Pack565ObeysItsLaws :=
  ⟨fun _ _ _ _ _ _ => pack565_inj, fun c => ⟨_, _, _, pack565_channelsOf c 0⟩, rfl, rfl,
    fun _ _ _ _ _ _ => pack565_mono, card_pack565_preimage⟩

/-! ### CONVERT -/

/-- Settles O11: CONVERT with BUSY 0 is the common acceptance, then its own. -/
theorem convertIsAccepted : Obligations.ConvertIsAccepted := fun _ h => exec_idle h .convert

/-- The packed word of the three bytes of CONV_IN: its bits 23:19, 15:10 and 7:3 (R87, R182). -/
theorem pack565_convIn (c : BitVec 24) :
    pack565 (c.extractLsb' 16 8) (c.extractLsb' 8 8) (c.extractLsb' 0 8) =
      BitVec.ofNat 16 (2048 * (c.toNat / 524288) + 32 * (c.toNat / 1024 % 64) + c.toNat / 8 % 32) := by
  have hc := c.isLt
  have hred : (c.extractLsb' 16 8).toNat / 8 = c.toNat / 524288 := by
    rw [extractLsb'_toNat_eq_div_mod]
    omega
  have hgreen : (c.extractLsb' 8 8).toNat / 4 = c.toNat / 1024 % 64 := by
    rw [extractLsb'_toNat_eq_div_mod]
    omega
  have hblue : (c.extractLsb' 0 8).toNat / 8 = c.toNat / 8 % 32 := by
    rw [extractLsb'_toNat_eq_div_mod]
    omega
  rw [← BitVec.toNat_inj, pack565PacksTruncatedChannels, hred, hgreen, hblue, BitVec.toNat_ofNat]
  omega

/-- Settles O36: the write's acceptance latches CONV_IN, and the ENGINE's one step packs the latch and finishes. -/
theorem convertCommandPacksConvIn : Obligations.ConvertCommandPacksConvIn := by
  intro s r1 r2 hidle
  calc Host.Core.run core 2 (placeTurn r1 (.host (cmdAccess .convert)) (placeTurn r2 .engine s))
    _ = Host.Core.run core 1 (placeTurn r2 .engine (accepted .convert s)) := run_cmdAccess (by exact hidle) .convert
    _ = Host.Core.run core 0 (convStep (accepted .convert s)) := run_convStep (by rfl)
    _ = _ := by
      rw [run_zero, ← pack565_convIn]
      rfl

end Sys2Proof.Machine
end

section
/-! PROOFS. The write arbiter and the EXT client (spec/43_write_arbiter.md R195 to R207): their steps one by one, and
what any step of any agent can do to the arbiter and to HIST. -/

namespace Sys2Proof.Machine

/-! ### The grant step -/

theorem step_arb (ready : Bool) (s : State) : step (placeTurn ready .arb s) = .next (grantStep s) := rfl

/-- Who is granted the sink: nobody where it is owned or not asked for; P0 where it asks alone or has the priority; else
P1 (R198, R199). -/
theorem grantee_eq (p : ArbPriority) (a : Arbiter) : grantee p a =
    if a.owner ≠ none ∨ (a.reqP0 = false ∧ a.reqP1 = false) then none
    else if a.reqP1 = false ∨ (a.reqP0 = true ∧ p = .p0First) then some .p0
    else some .p1 := by
  obtain ⟨owner, reqP0, reqP1⟩ := a
  cases owner with
  | some q => rfl
  | none => cases reqP0 <;> cases reqP1 <;> cases p <;> rfl

/-- The grant writes OWNER only (R198). -/
theorem grantStep_frame (s : State) : grantStep s = { s with arb := (grantStep s).arb } := by
  rw [grantStep]
  split <;> rfl

/-- Settles O38: the grant step by its three answers. -/
theorem grantGivesTheFreeSink : Obligations.GrantGivesTheFreeSink := by
  intro s ready
  rw [step_arb, grantStep, grantee_eq]
  split_ifs <;> rfl

/-! ### The EXT client's steps -/

theorem step_extRequest (ready : Bool) (s : State) :
    step (placeTurn ready .extRequest s) = .next (extRequest s) := rfl

theorem step_extOp (ready : Bool) (call : ExtCall) (s : State) :
    step (placeTurn ready (.extOp call) s) = .next (extOp ready call s) := rfl

theorem step_extRelease (ready : Bool) (s : State) :
    step (placeTurn ready .extRelease s) = .next (extRelease s) := rfl

/-- A request leaves REQ_P1 set, whether it was or not (R204). -/
theorem extRequest_eq (s : State) : extRequest s = { s with arb := { s.arb with reqP1 := true } } := by
  rw [extRequest]
  split
  next h => rw [← h]
  next => rfl

/-- An operation writes HIST only (R205). -/
theorem extOp_frame (ready : Bool) (call : ExtCall) (s : State) :
    extOp ready call s = { s with hist := (extOp ready call s).hist } := by
  rw [extOp]
  split <;> rfl

/-- A release writes the arbiter only (R206). -/
theorem extRelease_frame (s : State) : extRelease s = { s with arb := (extRelease s).arb } := by
  rw [extRelease]
  split <;> rfl

theorem eventPort_extEvent (call : ExtCall) : eventPort (extEvent call) = .p1 := by
  cases call <;> rfl

/-- Settles O39: the three steps are the EXT client's own; only a request's two cases are one. -/
theorem extStepsFollowTheHandshake : Obligations.ExtStepsFollowTheHandshake := by
  intro s ready x y c name args
  refine ⟨?_, step_extOp ready (.setPixel x y c) s, step_extOp ready (.other name args) s, step_extRelease ready s⟩
  rw [step_extRequest, extRequest_eq]

/-! ### What the HOST reads of them -/

/-- A step that writes the arbiter and HIST only leaves the window but STATUS as it was (R207). -/
theorem readWindow_of_arb_hist_frame {s t : State} (h : t = { s with arb := t.arb, hist := t.hist }) {w : BitVec 6}
    (hw : w ≠ 1) : readWindow w t = readWindow w s := by
  rw [h]
  exact readWindow_arb_hist_turns hw s t.arb t.hist s.turns s.draws

/-- Settles O43: each of the four steps has such a frame. -/
theorem arbiterAndExtChangeOnlyStatus : Obligations.ArbiterAndExtChangeOnlyStatus := by
  intro s ready a ha
  suffices h : ∃ t, step (placeTurn ready a s) = .next t ∧ t = { s with arb := t.arb, hist := t.hist } by
    obtain ⟨t, hstep, hframe⟩ := h
    exact ⟨t, hstep, hframe, fun w => readWindow_of_arb_hist_frame hframe⟩
  rcases ha with rfl | rfl | rfl | ⟨call, rfl⟩
  · exact ⟨grantStep s, step_arb ready s, by rw [grantStep_frame]⟩
  · exact ⟨extRequest s, step_extRequest ready s, by rw [extRequest_eq]⟩
  · exact ⟨extRelease s, step_extRelease ready s, by rw [extRelease_frame]⟩
  · exact ⟨extOp ready call s, step_extOp ready call s, by rw [extOp_frame]⟩

/-! ### HIST and the sink's owner -/

/-- One event of the sink's owner, sent to a sink that is ready (R196, R202). -/
def OwnerSends (ready : Bool) (u t : State) : Prop :=
  ∃ e, t.hist = u.hist ++ [e] ∧ u.arb.owner = some (eventPort e) ∧ ready = true

section Hist

variable {ready : Bool} {a : Action} {u t : State}

theorem EngineEffect.hist_cases (e : EngineEffect ready u t) : t.hist = u.hist ∨ OwnerSends ready u t := by
  cases e with
  | pixel _ ho hr => exact .inr ⟨_, writePixel_hist .., ho, hr⟩
  | _ => exact .inl (by simp)

/-- Only the pixel step and an EXT operation append to HIST, each for a port that owns a ready sink. -/
theorem TurnEffect.hist_cases (e : TurnEffect ready a u t) : t.hist = u.hist ∨ OwnerSends ready u t := by
  cases e with
  | engine _ _ he => exact he.hist_cases
  | accepted i => exact .inl (accepted_hist i u)
  | sent call _ ho hr => exact .inr ⟨extEvent call, rfl, by rw [eventPort_extEvent, ho], hr⟩
  | _ => exact .inl rfl

end Hist

/-- Settles O41, by the cases of a turn that can append to HIST. -/
theorem onlyTheOwnerWritesTheSink : Obligations.OnlyTheOwnerWritesTheSink := by
  intro s t hstep
  obtain ⟨_, _, e⟩ := step_effect_from hstep
  exact e.hist_cases

/-! ### What a turn can do to the arbiter -/

/-- Everything a turn can do to the arbiter: its guards and the arbiter it leaves (R154, R160, R198, R204, R206,
R271). -/
inductive ArbEffect (a : Action) (u t : State) : Prop
  | kept (h : t.arb = u.arb)
  | walkStarted (ha : a = .engine) (hf : u.fsm = .blitCheck) (h : t.arb = { u.arb with reqP0 := true })
  | walkEnded (ha : a = .engine) (hf : u.fsm = .blitPix) (ht : t.fsm = .idle) (ho : u.arb.owner = some .p0)
      (h : t.arb = { u.arb with owner := none, reqP0 := false })
  | granted (p : Port) (ha : a = .arb) (hn : u.arb.owner = none)
      (hp : (p = .p0 ∧ u.arb.reqP0 = true) ∨ (p = .p1 ∧ u.arb.reqP1 = true))
      (h : t.arb = { u.arb with owner := some p })
  | requested (ha : a = .extRequest) (h : t.arb = { u.arb with reqP1 := true })
  | released (ha : a = .extRelease) (ho : u.arb.owner = some .p1)
      (h : t.arb = { u.arb with owner := none, reqP1 := false })
  | reset (ha : a = .reset) (h : t.arb = .reset)

@[simp] theorem commit_arb (h : Header) (s : State) : (commit h s).arb = s.arb := by rw [commit_frame]

@[simp] theorem convStep_arb (s : State) : (convStep s).arb = s.arb := rfl

/-- The advance gives the sink back at the walk's end only (R157, R160). -/
theorem advance_arb (s : State) : (advance s).arb = s.arb ∨
    ((advance s).fsm = .idle ∧ (advance s).arb = { s.arb with owner := none, reqP0 := false }) := by
  rcases advance_cases s with ⟨-, he⟩ | ⟨-, -, he⟩ | ⟨-, -, he⟩ <;> rw [he]
  · exact .inl rfl
  · exact .inl rfl
  · exact .inr ⟨rfl, rfl⟩

section Arb

variable {ready : Bool} {a : Action} {u t : State}

theorem EngineEffect.arb_effect (e : EngineEffect ready u t) : ArbEffect .engine u t := by
  cases e with
  | walkStarted hf => exact .walkStarted rfl hf rfl
  | pixel hf ho =>
    rcases advance_arb (pixelSent _ u) with harb | ⟨hidle, harb⟩
    · exact .kept harb
    · exact .walkEnded rfl hf hidle ho harb
  | _ => exact .kept (by simp)

theorem TurnEffect.arb_effect (e : TurnEffect ready a u t) : ArbEffect a u t := by
  cases e with
  | engine _ ha he => exact ha ▸ he.arb_effect
  | grant p ha hn hp => exact .granted p ha hn hp rfl
  | accepted i =>
    obtain ⟨-, harb, -⟩ := accepted_kept i u
    exact .kept harb
  | requested ha => exact .requested ha rfl
  | released ha ho => exact .released ha ho rfl
  | reset ha => exact .reset ha rfl
  | _ => exact .kept rfl

end Arb

/-! ### The owner's request, and no preemption -/

/-- An owner has its request set (R196). -/
def Arbiter.OwnerAsks (x : Arbiter) : Prop :=
  (x.owner = some .p0 → x.reqP0 = true) ∧ (x.owner = some .p1 → x.reqP1 = true)

section Owner

variable {a : Action} {u t : State}

/-- A free sink is given to a port that asks, and a request ends only with its grant (R196, R198). -/
theorem ArbEffect.ownerAsks (e : ArbEffect a u t) (hu : u.arb.OwnerAsks) : t.arb.OwnerAsks := by
  obtain ⟨h0, h1⟩ := hu
  cases e with
  | kept h => rw [h]; exact ⟨h0, h1⟩
  | walkStarted _ _ h => rw [h]; exact ⟨fun _ => rfl, h1⟩
  | requested _ h => rw [h]; exact ⟨h0, fun _ => rfl⟩
  | walkEnded _ _ _ _ h | released _ _ h | reset _ h => rw [h]; exact ⟨nofun, nofun⟩
  | granted p _ _ hp h =>
    rw [h]
    rcases hp with ⟨rfl, hreq⟩ | ⟨rfl, hreq⟩
    · exact ⟨fun _ => hreq, nofun⟩
    · exact ⟨nofun, fun _ => hreq⟩

/-- The three ways for an owner to lose the sink (R200, R201, R206). -/
theorem ArbEffect.owner_cases (e : ArbEffect a u t) {p : Port} (ho : u.arb.owner = some p) :
    t.arb.owner = some p ∨ (t.arb.owner = none ∧ (a = .reset ∨ (p = .p1 ∧ a = .extRelease) ∨
      (p = .p0 ∧ a = .engine ∧ u.fsm = .blitPix ∧ t.fsm = .idle))) := by
  cases e with
  | kept h | walkStarted _ _ h | requested _ h => rw [h]; exact .inl ho
  | granted _ _ hn => exact nomatch ho.symm.trans hn
  | reset ha h => exact .inr ⟨by rw [h]; rfl, .inl ha⟩
  | released ha ho' h =>
    cases ho.symm.trans ho'
    exact .inr ⟨by rw [h], .inr (.inl ⟨rfl, ha⟩)⟩
  | walkEnded ha hf ht ho' h =>
    cases ho.symm.trans ho'
    exact .inr ⟨by rw [h], .inr (.inr ⟨rfl, ha, hf, ht⟩)⟩

end Owner

/-- Settles O40: the turn's effect on the arbiter keeps the owner's request, and its event is the owner's. -/
theorem ownerAlwaysHasItsRequest : Obligations.OwnerAlwaysHasItsRequest := by
  intro s t h0 h1 hstep
  obtain ⟨_, _, e⟩ := step_effect_from hstep
  obtain ⟨h0', h1'⟩ := e.arb_effect.ownerAsks ⟨h0, h1⟩
  exact ⟨h0', h1', e.hist_cases.imp id fun ⟨ev, hhist, howner, _⟩ => ⟨ev, hhist, howner⟩⟩

/-- Settles O42, by the cases of a turn's effect on an arbiter that has an owner. -/
theorem noPortIsPreempted : Obligations.NoPortIsPreempted := by
  intro s t p ho hstep
  obtain ⟨_, _, e⟩ := step_effect_from hstep
  exact e.arb_effect.owner_cases ho

end Sys2Proof.Machine
end

section
/-! PROOFS. A walk that owns the sink (spec/41_raster_blit.md R162, spec/43_write_arbiter.md R201, R203): it stands at
a place of its closed form, and a step of any agent but reset leaves it there or takes it one pixel on. -/

namespace Sys2Proof.Machine

/-! ### The walk's place in its closed form -/

/-- The state with another HIST. -/
def withHist (h0 : List SinkEvent) (s : State) : State := { s with hist := h0 }

/-- A state whose progress registers are those of pixel `k` is the closed form's state there, begun at HIST = `h0`. -/
theorem eq_walkAt_of_progress {s : State} {h0 : List SinkEvent} {k : Nat} (hhist : s.hist = h0 ++ walkEvents s k)
    (hcursor : s.cursor = BitVec.ofNat 32 (u32 s.hdr.pixelOffset + 3 * k)) (hcount : s.pixCount = BitVec.ofNat 32 k)
    (hrow : s.row = wrap32 (rasterH s - (k / (rasterW s).toNat : Nat)))
    (hcol : s.col = BitVec.ofNat 32 (k % (rasterW s).toNat)) : s = walkAt (withHist h0 s) k := by
  have hplace : walkAt (withHist h0 s) k =
      { s with hist := h0 ++ walkEvents s k, cursor := BitVec.ofNat 32 (u32 s.hdr.pixelOffset + 3 * k)
               pixCount := BitVec.ofNat 32 k, row := wrap32 (rasterH s - (k / (rasterW s).toNat : Nat))
               col := BitVec.ofNat 32 (k % (rasterW s).toNat) } := rfl
  rw [hplace, ← hhist, ← hcursor, ← hcount, ← hrow, ← hcol]

section Place

variable {s : State} (h : WalkInv s)
include h

theorem WalkInv.index_nonneg : 0 ≤ walkIndex s := by
  rw [← h.count_eq]
  exact Int.natCast_nonneg _

/-- The next pixel's number as the place's line and column (R156). -/
theorem WalkInv.index_div_mod : (walkIndex s).toNat / (rasterW s).toNat = (rasterH s - s32 s.row).toNat ∧
    (walkIndex s).toNat % (rasterW s).toNat = (s32 s.col).toNat := by
  have hline : 0 ≤ rasterH s - s32 s.row := by linarith [h.row_le]
  have hwidth : 0 ≤ rasterW s := by linarith [h.width_pos]
  have hlt := h.col_lt
  have hcol := h.col_nonneg
  refine (Nat.div_mod_unique (by have := h.width_pos; omega)).2 ⟨?_, by omega⟩
  zify
  rw [Int.toNat_of_nonneg hcol, Int.toNat_of_nonneg hwidth, Int.toNat_of_nonneg hline,
    Int.toNat_of_nonneg h.index_nonneg, walkIndex]
  ring

theorem WalkInv.count_toNat : u32 s.pixCount = (walkIndex s).toNat := by
  have := h.count_eq
  omega

theorem WalkInv.cursor_toNat : u32 s.cursor = u32 s.hdr.pixelOffset + 3 * (walkIndex s).toNat := by
  have hcursor := h.cursor_eq
  have hindex := h.index_nonneg
  omega

/-- Within a walk the progress registers are those of the closed form (R156, R162). -/
theorem WalkInv.eq_walkAt {h0 : List SinkEvent} (hhist : s.hist = h0 ++ walkEvents s (walkIndex s).toNat) :
    s = walkAt (withHist h0 s) (walkIndex s).toNat := by
  obtain ⟨hdiv, hmod⟩ := h.index_div_mod
  have hle := h.row_le
  have hnonneg := h.col_nonneg
  refine eq_walkAt_of_progress hhist ?_ ?_ ?_ ?_
  · rw [← h.cursor_toNat, u32, BitVec.ofNat_toNat, BitVec.setWidth_eq]
  · rw [← h.count_toNat, u32, BitVec.ofNat_toNat, BitVec.setWidth_eq]
  · rw [hdiv, Int.toNat_of_nonneg (by omega), Int.sub_sub_self, wrap32_s32]
  · rw [hmod, ← BitVec.ofInt_natCast, Int.toNat_of_nonneg hnonneg]
    exact (wrap32_s32 s.col).symm

theorem WalkInv.index_lt_pixelTotal : (walkIndex s).toNat < pixelTotal s := by
  have hindex := h.index_lt
  have hnonneg := h.index_nonneg
  unfold pixelTotal
  omega

end Place

section Walk

variable {s : State} (h : FittingWalk s) {k : Nat} (hk : k < pixelTotal s)
include h hk

/-- The place of pixel `k` is its number's (R156). -/
theorem FittingWalk.walkIndex_walkAt : walkIndex (walkAt s k) = k := by
  have hwidth : ((rasterW s).toNat : Int) = rasterW s := Int.toNat_of_nonneg (by linarith [h.width_pos])
  have hplace : walkIndex (walkAt s k) =
      (rasterH s - s32 (walkAt s k).row) * rasterW s + s32 (walkAt s k).col := rfl
  rw [hplace, h.row_walkAt hk, h.col_walkAt k, Int.sub_sub_self, ← hwidth]
  exact_mod_cast Nat.div_add_mod' k _

theorem FittingWalk.grantedWalk_walkAt : GrantedWalk s.hist (walkAt s k) :=
  ⟨h.fsm, h.owner, by rw [h.walkIndex_walkAt hk]; rfl⟩

end Walk

/-! ### One turn of a granted walk -/

/-- The end of the walk of `s`, begun when HIST was `h0` (R160, R162). -/
def WalkFinished (h0 : List SinkEvent) (s t : State) : Prop :=
  t.fsm = .idle ∧ t.arb.owner = none ∧ t.status.done = true ∧ t.status.err = .none ∧
    t.hist = h0 ++ walkEvents s (pixelTotal s) ∧ t.pixCount = BitVec.ofNat 32 (pixelTotal s)

/-- The pixel step takes a granted walk to the next pixel, or through the last one to its end (R157, R160). -/
theorem FittingWalk.engineStep_cases {s : State} (h : FittingWalk s) {k : Nat} (hk : k < pixelTotal s) :
    GrantedWalk s.hist (engineStep true (walkAt s k)) ∨
      WalkFinished s.hist (walkAt s k) (engineStep true (walkAt s k)) := by
  rw [h.engineStep_walkAt hk]
  by_cases hmore : k + 1 < pixelTotal s
  · rw [if_pos hmore]
    exact .inl (h.grantedWalk_walkAt hmore)
  · have hlast : k + 1 = pixelTotal s := by omega
    rw [if_neg hmore, hlast]
    exact .inr ⟨rfl, rfl, rfl, rfl, rfl, rfl⟩

theorem GrantedWalk.engineStep_cases {h0 : List SinkEvent} {s : State} (hg : GrantedWalk h0 s) (hw : WalkInv s) :
    GrantedWalk h0 (engineStep true s) ∨ WalkFinished h0 s (engineStep true s) := by
  obtain ⟨hf, ho, hhist⟩ := hg
  have hstart : FittingWalk (withHist h0 s) := ⟨hf, ho, hw.width_pos, hw.height_pos, hw.fits⟩
  have hcases := hstart.engineStep_cases (k := (walkIndex s).toNat) hw.index_lt_pixelTotal
  rwa [← hw.eq_walkAt hhist] at hcases

section Turn

variable {ready : Bool} {a : Action} {h0 : List SinkEvent} {s t : State} (hinv : Inv s) (hg : GrantedWalk h0 s)
include hinv hg

theorem EngineEffect.grantedWalk (e : EngineEffect ready s t) : GrantedWalk h0 t ∨ WalkFinished h0 s t := by
  have ⟨hf, ho, _⟩ := hg
  have hwalk : WalkInv s := hinv.walk hf
  cases e with
  | hold => exact .inl hg
  | pixel _ _ _ hc =>
    have hstep := hg.engineStep_cases hwalk
    rw [engineStep_pixel hf ho hc] at hstep
    exact hstep
  | pixelOverran _ _ _ hc => exact absurd hwalk.read_fits (Nat.not_le.2 hc)
  | parsed h | parseRaised _ h | noHeader h | emptyWalk h | tooShort h | walkStarted h | converted h =>
    exact nomatch hf.symm.trans h

/-- No agent's turn but reset breaks a granted walk: the sink is owned, so the arbiter grants nothing and the EXT client
sends and releases nothing; BUSY is 1, so the HOST's commands are dropped (R201, R203, R226). -/
theorem TurnEffect.grantedWalk (e : TurnEffect ready a s t) (hr : a ≠ .reset) :
    GrantedWalk h0 t ∨ WalkFinished h0 s t := by
  have ⟨hf, ho, _⟩ := hg
  have hbusy : s.status.busy = true := (hinv.running (by rw [hf]; nofun)).busy
  cases e with
  | engine _ _ he => exact he.grantedWalk hinv hg
  | reset h => exact absurd h hr
  | grant _ _ hn => exact nomatch ho.symm.trans hn
  | sent _ _ ho' | released _ ho' => exact nomatch ho.symm.trans ho'
  | illegal _ _ _ hb | accepted _ _ _ hb => exact nomatch hbusy.symm.trans hb
  | hold | finished | read | writeX | writeY | writeConv | dropped | requested => exact .inl hg

end Turn

/-- Settles O32: a step is its turn's effect on the same walk, for a walk's closed form reads none of the model's own
fields. -/
theorem grantedWalkIsUnbrokenByAnyAgent : Obligations.GrantedWalkIsUnbrokenByAnyAgent := by
  intro h0 s t hinv hg hr hstep
  obtain ⟨ts, n, e⟩ := step_effect_from hstep
  have hinv' : Inv { s with turns := ts, draws := n } := hinv.congr rfl rfl rfl
  have hg' : GrantedWalk h0 { s with turns := ts, draws := n } := hg
  have houtcome := e.grantedWalk hinv' hg' hr
  exact houtcome

end Sys2Proof.Machine
end

section
/-! PROOFS. The HOST's command write (spec/44_command_control.md R223 to R228): the order of its tests, and what a
dropped word, a refused word and an accepted command leave. -/

namespace Sys2Proof.Machine

/-! ### The words that are no command -/

/-- R225's reading of an illegal word is the decoder's. -/
theorem wordLegal_eq_false_iff {word : Word} :
    wordLegal word = false ↔ word.toNat / 16 ≠ 0 ∨ 5 ≤ word.toNat % 16 :=
  decode_error_iff.symm.trans (reservedWordsAreNoCommand word)

/-- The `OP` field is the word's low four bits (R95). -/
theorem cmdOp_eq_ofNat (word : Word) : cmdOp word = BitVec.ofNat 4 word.toNat := by
  rw [← BitVec.toNat_inj, cmdOp_toNat, BitVec.toNat_ofNat]

/-! ### The arms of the CMD write -/

/-- R226: the busy test comes before the legality test, so a command and an illegal word are dropped alike. -/
theorem hostWriteCmd_of_busy {word : Word} {s : State} (hword : word ≠ 0) (hbusy : s.status.busy = true) :
    hostWriteCmd word s = .next (drop s) := by
  rcases hostWriteCmd_cases word s with ⟨hzero, -⟩ | ⟨-, -, hdrop⟩ | ⟨-, hidle, -⟩ | ⟨-, -, -, hidle, -⟩
  · exact absurd hzero hword
  · exact hdrop
  · exact nomatch hbusy.symm.trans hidle
  · exact nomatch hbusy.symm.trans hidle

/-- R225: an illegal word at an idle ENGINE is refused. -/
theorem hostWriteCmd_of_illegal {word : Word} {s : State} (hidle : s.status.busy = false)
    (hillegal : wordLegal word = false) : hostWriteCmd word s = .next (refuseIllegal word s) := by
  obtain ⟨e, he⟩ := decode_error_iff.2 hillegal
  simp only [hostWriteCmd, he, hidle, Bool.false_eq_true, if_false]

/-- Settles O13: the drop is the write of OVR alone. -/
theorem wordWhileBusyIsDropped : Obligations.WordWhileBusyIsDropped := by
  intro s ready word hbusy hword
  rw [step_command, hostWriteCmd_of_busy hword hbusy]
  rfl

/-- Settles O14: the refusal writes ERR_INFO and the flags of R225, of which BUSY keeps its 0. -/
theorem illegalWordIsRefused : Obligations.IllegalWordIsRefused := by
  intro s ready word hidle hillegal
  rw [step_command, hostWriteCmd_of_illegal hidle (wordLegal_eq_false_iff.2 hillegal), refuseIllegal, statusIllegal,
    cmdOp_eq_ofNat, hidle]

/-- Settles O6: the tests in R223's order; a word that passes them all is one of the table's. -/
theorem commandWriteIsTestedInOrder : Obligations.CommandWriteIsTestedInOrder := by
  intro s ready word
  have hcommand (i : Instr) := (decodeReadsExactlyTheTableWords word i).2
  split_ifs with hnop hbusy hillegal hparse hblit hdecodeBlit
  · exact hostWriteCmd_of_decode (hcommand .nop hnop) s
  · exact wordWhileBusyIsDropped s ready word hbusy (by rintro rfl; exact hnop rfl)
  · rw [step_command, hostWriteCmd_of_illegal (Bool.not_eq_true _ ▸ hbusy) (wordLegal_eq_false_iff.2 hillegal),
      refuseIllegal, statusIllegal, cmdOp_eq_ofNat]
  · exact hostWriteCmd_of_decode (hcommand .parse hparse) s
  · exact hostWriteCmd_of_decode (hcommand .blit hblit) s
  · exact hostWriteCmd_of_decode (hcommand .decodeBlit hdecodeBlit) s
  · have hconvert : word.toNat = 4 := by omega
    exact hostWriteCmd_of_decode (hcommand .convert hconvert) s

/-! ### The latches -/

/-- The common acceptance latches the operands (R228), and no command's own acceptance writes a latch or an operand. -/
theorem accepted_operands {i : Instr} (h : i ≠ .nop) (s : State) :
    (accepted i s).latOx = s.originX ∧ (accepted i s).latOy = s.originY ∧ (accepted i s).latCin = s.convIn ∧
      (accepted i s).originX = s.originX ∧ (accepted i s).originY = s.originY ∧
      (accepted i s).convIn = s.convIn := by
  cases i with
  | nop => exact absurd rfl h
  | _ => exact ⟨rfl, rfl, rfl, rfl, rfl, rfl⟩

/-- Settles O12: a command written while BUSY is 0 is accepted. -/
theorem acceptanceLatchesTheOperands : Obligations.AcceptanceLatchesTheOperands := fun s i hi hidle =>
  ⟨accepted i s, exec_idle hidle i, accepted_operands hi s⟩

end Sys2Proof.Machine
end

section
/-! PROOFS. The HOST's register port (spec/44_command_control.md R220 to R222, R231): where a write lands, what a read
returns, and the value of STATUS. -/

namespace Sys2Proof.Machine

/-! ### Writes -/

/-- Settles O17: the outcomes of a write, at index 4 with CONV_IN's 24 bits. -/
theorem hostWriteLandsByOffset : Obligations.HostWriteLandsByOffset := by
  intro s ready w data
  rw [step_write]
  rcases hostWrite_cases w data s with
    ⟨rfl, hcmd⟩ | ⟨rfl, hx⟩ | ⟨rfl, hy⟩ | ⟨rfl, hconv⟩ | ⟨h0, h2, h3, h4, hignored⟩
  · exact hcmd
  · exact hx
  · exact hy
  · have hlow : data.extractLsb' 0 24 = BitVec.ofNat 24 data.toNat := rfl
    rw [hconv, hlow]
    rfl
  · rw [hignored, if_neg h0, if_neg h2, if_neg h3, if_neg h4]

/-! ### Reads -/

theorem eq_regIndex_of_regAt {w : BitVec 6} {r : Reg} (h : regAt w = some r) : w = regIndex r := by
  revert w
  cases r <;> decide

/-- Settles O15: a word index is a register's own or reserved, and the two narrow registers read with their upper bits
0. -/
theorem hostReadReturnsTheMappedRegister : Obligations.HostReadReturnsTheMappedRegister := by
  intro s ready w v hv
  have hvalue : readWindow w s = v := by
    rw [hv]
    cases hr : regAt w with
    | none =>
      have hreserved (k : BitVec 6) (hk : k.toNat < 17) : w ≠ k := by
        rintro rfl
        exact absurd ((regAt_eq_none_iff w).1 hr) (Nat.not_le.2 hk)
      simp [readWindow, hr, hreserved]
    | some r =>
      rw [eq_regIndex_of_regAt hr, readWindow_regIndex]
      cases r with
      | convIn | convOut => rw [BitVec.ofNat_toNat, BitVec.ofNat_toNat]; rfl
      | _ => rfl
  rw [step_read, hostRead, hvalue]

/-! ### STATUS -/

/-- The word `w` has the value `v` and no bit from `n` on. -/
def HasLowBits (w : Word) (n v : Nat) : Prop := w.toNat = v ∧ v < 2 ^ n

theorem hasLowBits_flag (b : Bool) : HasLowBits (flagAt b 0) 1 b.toNat := by
  cases b <;> exact ⟨rfl, by decide⟩

/-- A field put right above the bits that a word has adds its value at its weight. -/
theorem HasLowBits.or_field {w : Word} {n v k : Nat} (h : HasLowBits w n v) (field : BitVec k) (hfit : n + k ≤ 32) :
    HasLowBits (w ||| field.setWidth 32 <<< n) (n + k) (v + 2 ^ n * field.toNat) := by
  obtain ⟨hw, hv⟩ := h
  have hbound : v + 2 ^ n * field.toNat < 2 ^ (n + k) :=
    calc v + 2 ^ n * field.toNat
      _ < 2 ^ n * (field.toNat + 1) := by rw [Nat.mul_succ]; omega
      _ ≤ 2 ^ (n + k) := by rw [Nat.pow_add]; exact Nat.mul_le_mul_left _ field.isLt
  have hword : 2 ^ (n + k) ≤ 2 ^ 32 := Nat.pow_le_pow_right (by decide) hfit
  have hfield : (field.setWidth 32 <<< n).toNat = field.toNat <<< n := by
    rw [BitVec.toNat_shiftLeft, BitVec.toNat_setWidth_of_le (by omega), Nat.mod_eq_of_lt]
    rw [Nat.shiftLeft_eq, Nat.mul_comm]
    omega
  refine ⟨?_, hbound⟩
  rw [BitVec.toNat_or, hw, hfield, Nat.lor_comm, ← Nat.shiftLeft_add_eq_or_of_lt hv, Nat.shiftLeft_eq, Nat.mul_comm,
    Nat.add_comm]

theorem HasLowBits.or_flag {w : Word} {n v : Nat} (h : HasLowBits w n v) (b : Bool) (hfit : n + 1 ≤ 32) :
    HasLowBits (w ||| flagAt b n) (n + 1) (v + 2 ^ n * b.toNat) := by
  have hflag := h.or_field (BitVec.ofBool b) hfit
  rwa [BitVec.toNat_ofBool] at hflag

/-- R231's fields follow one another without a gap, so each is put right above those before it. -/
theorem statusWord_hasLowBits (s : State) : HasLowBits (statusWord s) 20
    (s.status.busy.toNat + 2 * s.status.done.toNat + 4 * s.status.hdrValid.toNat + 8 * s.status.ovr.toNat
      + 16 * (errBits s.status.err).toNat + 256 * (causeBits s.status.cause).toNat + 4096 * s.status.lastOp.toNat
      + 65536 * (ownerBits s.arb.owner).toNat + 262144 * s.arb.reqP0.toNat + 524288 * s.arb.reqP1.toNat) :=
  have hflags := (((hasLowBits_flag s.status.busy).or_flag s.status.done (by decide)).or_flag s.status.hdrValid
    (by decide)).or_flag s.status.ovr (by decide)
  have hcodes := ((hflags.or_field (errBits s.status.err) (by decide)).or_field (causeBits s.status.cause)
    (by decide)).or_field s.status.lastOp (by decide)
  ((hcodes.or_field (ownerBits s.arb.owner) (by decide)).or_flag s.arb.reqP0 (by decide)).or_flag s.arb.reqP1
    (by decide)

/-- Settles O16: `statusWord_hasLowBits`, with the codes of R29, R30 and R231. -/
theorem statusReadsItsFields : Obligations.StatusReadsItsFields := by
  intro s
  obtain ⟨hvalue, -⟩ := statusWord_hasLowBits s
  have herr : (errBits s.status.err).toNat = (match s.status.err with
      | .none => 0 | .invalidFormat => 1 | .truncatedData => 2 | .noHeader => 3 | .illegalCmd => 4) := by
    cases s.status.err <;> rfl
  have hcause : (causeBits s.status.cause).toNat = (match s.status.cause with
      | .none => 0 | .magic => 1 | .planes => 2 | .compression => 3) := by
    cases s.status.cause <;> rfl
  have howner : (ownerBits s.arb.owner).toNat = (match s.arb.owner with
      | none => 0 | some .p0 => 1 | some .p1 => 2) := by
    rcases s.arb.owner with _ | _ | _ <;> rfl
  rw [herr, hcause, howner] at hvalue
  exact hvalue

end Sys2Proof.Machine
end

section
/-! PROOFS. When the ENGINE has a step (spec/44_command_control.md R234). -/

namespace Sys2Proof.Machine

/-- R234's condition. -/
def EngineEnabled (ready : Bool) (s : State) : Prop :=
  s.fsm = .parse ∨ s.fsm = .blitCheck ∨ s.fsm = .conv ∨ (s.fsm = .blitPix ∧ s.arb.owner = some .p0 ∧ ready = true)

theorem commit_fsm_ne_parse (h : Header) (s : State) : (commit h s).fsm ≠ .parse := by
  rcases commit_cases h s with ⟨-, he⟩ | ⟨-, he⟩ <;> rw [he] <;> nofun

theorem writePixel_ne_self (b g r : Byte) (s : State) : writePixel b g r s ≠ s := by
  intro hsame
  have hlength := congrArg (fun t : State => t.hist.length) hsame
  simp at hlength

section Engine

variable {ready : Bool} {u t : State}

theorem not_engineEnabled_of_hold (h : u.fsm = .idle ∨ (u.fsm = .blitPix ∧ ¬ (u.arb.owner = some .p0 ∧ ready = true))) :
    ¬ EngineEnabled ready u := by
  rcases h with hidle | ⟨hpix, hblocked⟩
  · simp [EngineEnabled, hidle]
  · simpa [EngineEnabled, hpix] using hblocked

/-- A step of the ENGINE other than a hold moves FSM on or sends a pixel, so it leaves another state. -/
theorem EngineEffect.hold_or_ne (e : EngineEffect ready u t) :
    (¬ EngineEnabled ready u ∧ t = u) ∨ (EngineEnabled ready u ∧ t ≠ u) := by
  have moved {f : Fsm} (hu : u.fsm = f) (ht : t.fsm ≠ f) : t ≠ u := by
    rintro rfl
    exact ht hu
  cases e with
  | hold h => exact .inl ⟨not_engineEnabled_of_hold h, rfl⟩
  | parsed h => exact .inr ⟨.inl h, moved h (commit_fsm_ne_parse _ _)⟩
  | parseRaised _ h => exact .inr ⟨.inl h, moved h nofun⟩
  | noHeader h | emptyWalk h | tooShort h | walkStarted h => exact .inr ⟨.inr (.inl h), moved h nofun⟩
  | converted h => exact .inr ⟨.inr (.inr (.inl h)), moved h nofun⟩
  | pixel h ho hr => exact .inr ⟨.inr (.inr (.inr ⟨h, ho, hr⟩)), writePixel_ne_self _ _ _ _⟩
  | pixelOverran h ho hr => exact .inr ⟨.inr (.inr (.inr ⟨h, ho, hr⟩)), moved h nofun⟩

end Engine

/-- Settles O19: the ENGINE's turn is one of its effects, and only the hold leaves the state as it was. -/
theorem engineStepsExactlyWhenEnabled : Obligations.EngineStepsExactlyWhenEnabled := by
  intro s ready
  have hnext : step (placeTurn ready .engine s) = .next s ↔ engineStep ready s = s := by
    rw [step_engine, Host.Outcome.next.injEq]
  rw [hnext]
  rcases (engineStep_effect ready s).hold_or_ne with ⟨hdisabled, hsame⟩ | ⟨henabled, hother⟩
  · exact iff_of_true hsame hdisabled
  · exact iff_of_false hother (not_not_intro henabled)

end Sys2Proof.Machine
end

section
/-! PROOFS. Errors and the progress of a walk (spec/60_exceptions.md R246, R247, R257): every turn has a next state, an
error's step writes the finish's registers only, and PIX_COUNT and CURSOR only rise during a walk. -/

namespace Sys2Proof.Machine

/-! ### The two progress registers (R157, R257) -/

@[simp] theorem advance_pixCount (s : State) : (advance s).pixCount = s.pixCount := by rw [advance_frame]

@[simp] theorem advance_cursor (s : State) : (advance s).cursor = s.cursor := by rw [advance_frame]

@[simp] theorem writePixel_pixCount (b g r : Byte) (s : State) : (writePixel b g r s).pixCount = s.pixCount + 1 := by
  rw [writePixel_eq, advance_pixCount]; rfl

@[simp] theorem writePixel_cursor (b g r : Byte) (s : State) : (writePixel b g r s).cursor = s.cursor + 3 := by
  rw [writePixel_eq, advance_cursor]; rfl

/-- PIX_COUNT and CURSOR stay, or move on together by one pixel, as words. -/
def ProgressMoves (u t : State) : Prop :=
  (t.pixCount = u.pixCount ∧ t.cursor = u.cursor) ∨ (t.pixCount = u.pixCount + 1 ∧ t.cursor = u.cursor + 3)

section Progress

variable {ready : Bool} {a : Action} {u t : State}

theorem EngineEffect.progressMoves (e : EngineEffect ready u t) (hf : u.fsm = .blitPix) : ProgressMoves u t := by
  cases e with
  | hold | pixelOverran => exact .inl ⟨rfl, rfl⟩
  | pixel => exact .inr ⟨writePixel_pixCount .., writePixel_cursor ..⟩
  | parsed h | parseRaised _ h | noHeader h | emptyWalk h | tooShort h | walkStarted h | converted h =>
    exact nomatch hf.symm.trans h

/-- Only reset and the pixel step move the progress registers of a walk: BUSY is 1, so the HOST's commands are dropped
(R226). -/
theorem TurnEffect.progressMoves (e : TurnEffect ready a u t) (hf : u.fsm = .blitPix) (hbusy : u.status.busy = true)
    (hr : a ≠ .reset) : ProgressMoves u t := by
  cases e with
  | engine _ _ he => exact he.progressMoves hf
  | reset h => exact absurd h hr
  | accepted _ _ _ hb => exact nomatch hbusy.symm.trans hb
  | _ => exact .inl ⟨rfl, rfl⟩

end Progress

/-- Settles O33: the registers move as words, and a walk's next pixel lies in the image, so the sums do not wrap. -/
theorem walkProgressRises : Obligations.WalkProgressRises := by
  intro s t hinv hf hr hstep
  obtain ⟨_, _, e⟩ := step_effect_from hstep
  have hbusy : s.status.busy = true := (hinv.running (by rw [hf]; nofun)).busy
  have hwalk : WalkInv s := hinv.walk hf
  have hmoves : ProgressMoves s t := e.progressMoves hf hbusy hr
  rcases hmoves with ⟨hcount, hcursor⟩ | ⟨hcount, hcursor⟩ <;> rw [hcount, hcursor]
  · exact .inl ⟨rfl, rfl⟩
  · exact .inr ⟨hwalk.count_succ, hwalk.cursor_succ⟩

/-! ### The ENGINE's errors (R246, R247) -/

theorem writePixel_err (b g r : Byte) (s : State) :
    (writePixel b g r s).status.err = s.status.err ∨ (writePixel b g r s).status.err = .none := by
  rw [writePixel_eq]
  rcases advance_status (pixelSent (.pix .p0 (xcoord s) (ycoord s) (pack565 r g b)) s) with h | h <;> rw [h]
  · exact .inl rfl
  · exact .inr rfl

/-- The ENGINE's step leaves ERR as it was or NONE, or it is a raise; a pixel step raises only where its read overruns
(R61, R246). -/
theorem EngineEffect.err_cases {ready : Bool} {u t : State} (e : EngineEffect ready u t) :
    (t.status.err = u.status.err ∨ t.status.err = .none) ∨
      ∃ r, t = raise r u ∧ (u.fsm = .blitPix → imgLen u.config.img < u32 u.cursor + 3) := by
  have notPixel {f : Fsm} (h : u.fsm = f) (hne : f ≠ .blitPix) :
      u.fsm = .blitPix → imgLen u.config.img < u32 u.cursor + 3 := fun hf => absurd (h.symm.trans hf) hne
  cases e with
  | hold | walkStarted => exact .inl (.inl rfl)
  | emptyWalk | converted => exact .inl (.inr rfl)
  | parsed => exact .inl (commit_err _ u)
  | pixel => exact .inl (writePixel_err _ _ _ u)
  | parseRaised r h => exact .inr ⟨r, rfl, notPixel h nofun⟩
  | noHeader h => exact .inr ⟨⟨.noHeader, .none, 0⟩, rfl, notPixel h nofun⟩
  | tooShort h => exact .inr ⟨overrun (rasterEnd u).toNat, rfl, notPixel h nofun⟩
  | pixelOverran _ _ _ hc => exact .inr ⟨overrun (u32 u.cursor + 3), rfl, fun _ => hc⟩

/-- Settles O56: a running command has no error yet, so the step is a raise, and a walk's read never overruns. -/
theorem errorsLeaveNoTrace : Obligations.ErrorsLeaveNoTrace := by
  intro s t ready hinv hidle hstep herr
  rw [step_engine, Host.Outcome.next.injEq] at hstep
  have hnone : s.status.err = .none := (hinv.running hidle).err
  have e : EngineEffect ready s t := hstep ▸ engineStep_effect ready s
  rcases e.err_cases with hkept | ⟨r, rfl, hoverrun⟩
  · exact absurd (hkept.elim (·.trans hnone) id) herr
  · exact ⟨rfl, fun hf => absurd (hinv.walk hf).read_fits (Nat.not_le.2 (hoverrun hf))⟩

/-! ### No turn stops the machine (R221, R246) -/

theorem hostWriteCmd_next (word : Word) (s : State) : ∃ t, hostWriteCmd word s = .next t := by
  rcases hostWriteCmd_cases word s with ⟨-, h⟩ | ⟨-, -, h⟩ | ⟨-, -, h⟩ | ⟨_, -, -, -, h⟩ <;> exact ⟨_, h⟩

theorem hostWrite_next (w : BitVec 6) (data : Word) (s : State) : ∃ t, hostWrite w data s = .next t := by
  rcases hostWrite_cases w data s with ⟨-, h⟩ | ⟨-, h⟩ | ⟨-, h⟩ | ⟨-, h⟩ | ⟨-, -, -, -, h⟩
  · rw [h]; exact hostWriteCmd_next data s
  all_goals exact ⟨_, h⟩

theorem perform_next (tn : Turn) (s : State) : ∃ t, perform tn s = .next t := by
  obtain ⟨ready, action⟩ := tn
  cases action with
  | host access =>
    cases access with
    | rd w => exact ⟨_, rfl⟩
    | wr w data => exact hostWrite_next w data s
  | _ => exact ⟨_, rfl⟩

/-- Settles O47: a step performs the next turn, and every turn has a next state. -/
theorem everyStepHasANextState : Obligations.EveryStepHasANextState := fun _ => perform_next _ _

end Sys2Proof.Machine
end

section
/-! PROOFS. Reset and launch (spec/70_reset_and_hazards.md R270 to R274): the reset state field by field, what the HOST
reads of it, the invariant in it, and a BLIT given to it. -/

namespace Sys2Proof.Machine

/-! ### The reset state -/

/-- Settles O44: the reset step is `resetBlock`, whose block state is that of a launch. -/
theorem resetClearsAllBlockState : Obligations.ResetClearsAllBlockState := by
  intro s ready
  rw [step_reset]
  rfl

/-- Settles O48: `State.reset` is a launch too, with the empty image. -/
theorem invariantHoldsAtLaunch : Obligations.InvariantHoldsAtLaunch := ⟨fun _ => launch_inv, launch_inv default_wf⟩

/-! ### The window after launch -/

/-- STATUS shows its own flags and the arbiter, and nothing else (R231). -/
theorem statusWord_congr {s t : State} (hstatus : t.status = s.status) (harb : t.arb = s.arb) :
    statusWord t = statusWord s := by
  rw [statusWord, statusWord, hstatus, harb]

theorem statusWord_launch (c : Config) : statusWord (State.launch c) = 0 :=
  calc statusWord (State.launch c)
    _ = statusWord State.reset := statusWord_congr rfl rfl
    _ = 0 := by decide

/-- After launch every register but IMG_LEN_R reads 0 (R271). -/
theorem readReg_launch (r : Reg) (c : Config) :
    readReg r (State.launch c) = if r = .imgLenR then c.img.len else 0 := by
  cases r with
  | status => exact statusWord_launch c
  | _ => rfl

theorem regIndex_eq_imgLenR_iff (r : Reg) : regIndex r = 15 ↔ r = .imgLenR := by
  cases r <;> decide

/-- Settles O45: a reserved offset reads 0, any other reads its register. -/
theorem launchWindowReadsZero : Obligations.LaunchWindowReadsZero := by
  intro c w
  cases hr : regAt w with
  | none =>
    have hne : w ≠ 15 := by
      rintro rfl
      exact absurd hr nofun
    rw [if_neg hne, readWindow, hr]
  | some r =>
    rw [eq_regIndex_of_regAt hr, readWindow_regIndex, readReg_launch]
    exact if_congr (regIndex_eq_imgLenR_iff r).symm rfl rfl

/-! ### A BLIT right after reset -/

/-- The header gate's error (R152). -/
theorem blitCheck_noHeader {s : State} (h : s.status.hdrValid = false) : blitCheck s = finish .noHeader .none 0 s :=
  if_pos h

section Run

variable {n : Nat} {ready : Bool} {s : State}

theorem run_reset : Host.Core.run core (n + 1) (placeTurn ready .reset s) = Host.Core.run core n (resetBlock s) :=
  run_succ (step_reset ready s)

/-! Neither reset nor an acceptance reads or writes the turns still to come. -/

theorem resetBlock_placeTurn (a : Action) : resetBlock (placeTurn ready a s) = placeTurn ready a (resetBlock s) := rfl

theorem accepted_placeTurn (i : Instr) (a : Action) :
    accepted i (placeTurn ready a s) = placeTurn ready a (accepted i s) := by
  cases i <;> rfl

end Run

/-- Reset makes HDR_VALID 0 and a BLIT's acceptance keeps it, so the header gate is the run's end (R152, R274). -/
theorem run_blit_after_reset (s : State) (r1 r2 r3 : Bool) :
    Host.Core.run core 3 (placeTurn r1 .reset (placeTurn r2 (.host (cmdAccess .blit)) (placeTurn r3 .engine s))) =
      .next (finish .noHeader .none 0 (accepted .blit (resetBlock s))) := by
  rw [run_reset, resetBlock_placeTurn, resetBlock_placeTurn, run_cmdAccess rfl, accepted_placeTurn, run_engine,
    engineStep_blitCheck r3 rfl, blitCheck_noHeader rfl, run_zero]

/-- Settles O46: the run's end has LAST_OP = 2 and the NO_HEADER outcome, all else at its reset value. -/
theorem blitAfterResetReportsNoHeader : Obligations.BlitAfterResetReportsNoHeader := by
  intro s r1 r2 r3
  refine ⟨_, run_blit_after_reset s r1 r2 r3, ?_, rfl, rfl, rfl⟩
  calc statusWord (finish .noHeader .none 0 (accepted .blit (resetBlock s)))
    _ = statusWord (finish .noHeader .none 0 (accepted .blit State.reset)) := statusWord_congr rfl rfl
    _ = 0x00002032 := by decide

end Sys2Proof.Machine
end

section
/-! PROOFS. The operand registers and the ENGINE (spec/70_reset_and_hazards.md R277, spec/44_command_control.md R228):
a running command works from the latches, so the ENGINE's step commutes with any change of the registers. -/

namespace Sys2Proof.Machine

/-- The state with other values in ORIGIN_X, ORIGIN_Y and CONV_IN. -/
def withOperands (ox oy : Word) (ci : BitVec 24) (s : State) : State :=
  { s with originX := ox, originY := oy, convIn := ci }

section Operands

variable (ox oy : Word) (ci : BitVec 24) (s : State)

/-- The operand registers are among those of R140, and the step leaves the others of them as they are. -/
theorem parseStep_withOperands : parseStep (withOperands ox oy ci s) = withOperands ox oy ci (parseStep s) := by
  let x : ParseRest :=
    { originX := ox, originY := oy, latOx := s.latOx, latOy := s.latOy, latCin := s.latCin, convIn := ci,
      convOut := s.convOut, pixCount := s.pixCount, cursor := s.cursor, row := s.row, col := s.col, arb := s.arb,
      hist := s.hist }
  have hput : parseStep (withOperands ox oy ci s) = x.put (parseStep s) := parseStep_put x s
  rw [hput, parseStep_frame s]
  rfl

theorem blitCheck_withOperands : blitCheck (withOperands ox oy ci s) = withOperands ox oy ci (blitCheck s) := by
  simp only [blitCheck, apply_ite (withOperands ox oy ci)]
  rfl

theorem advance_withOperands : advance (withOperands ox oy ci s) = withOperands ox oy ci (advance s) := by
  simp only [advance, apply_ite (withOperands ox oy ci)]
  rfl

/-- The pixel step's coordinates come from the latches (R158, R159). -/
theorem pixelStep_withOperands : pixelStep (withOperands ox oy ci s) = withOperands ox oy ci (pixelStep s) := by
  have hread : readBytes (withOperands ox oy ci s).config.img (u32 (withOperands ox oy ci s).cursor) 3 =
      readBytes s.config.img (u32 s.cursor) 3 := rfl
  rw [pixelStep, pixelStep, hread]
  cases readBytes s.config.img (u32 s.cursor) 3 with
  | error r => rfl
  | ok bs => exact advance_withOperands ox oy ci (pixelSent _ s)

/-- The ENGINE's step neither reads nor writes the operand registers (R277). -/
theorem engineStep_withOperands (ready : Bool) :
    engineStep ready (withOperands ox oy ci s) = withOperands ox oy ci (engineStep ready s) := by
  have hfsm : (withOperands ox oy ci s).fsm = s.fsm := rfl
  rw [engineStep, engineStep, hfsm]
  cases s.fsm with
  | idle => rfl
  | parse => exact parseStep_withOperands ox oy ci s
  | blitCheck => exact blitCheck_withOperands ox oy ci s
  | conv => rfl
  | blitPix =>
    show (if pixelEnabled ready s then pixelStep (withOperands ox oy ci s) else withOperands ox oy ci s) = _
    rw [pixelStep_withOperands, ← apply_ite (withOperands ox oy ci)]

end Operands

/-- The commutation, with the registers' own values put in. -/
theorem engineStep_operands (ready : Bool) (s : State) : (engineStep ready s).originX = s.originX ∧
    (engineStep ready s).originY = s.originY ∧ (engineStep ready s).convIn = s.convIn := by
  have hframe : engineStep ready s = withOperands s.originX s.originY s.convIn (engineStep ready s) :=
    engineStep_withOperands s.originX s.originY s.convIn s ready
  rw [hframe]
  exact ⟨rfl, rfl, rfl⟩

/-- Settles O37: the step keeps the three registers, and commutes with putting other values in them. -/
theorem operandWritesNeverReachARunningCommand : Obligations.OperandWritesNeverReachARunningCommand := by
  intro s ready ox oy ci
  obtain ⟨hx, hy, hconv⟩ := engineStep_operands ready s
  refine ⟨engineStep ready s, step_engine ready s, hx, hy, hconv, ?_⟩
  have hchanged := step_engine ready (withOperands ox oy ci s)
  rwa [engineStep_withOperands] at hchanged

end Sys2Proof.Machine
end
